-- ==== Sys2Proof/Word.lean ====
section
/-! DEFINITION. The bit vectors of the FS8's registers and memory fields, and the names of things that are fixed sets. -/

namespace Sys2Proof

abbrev Byte := BitVec 8
abbrev Half := BitVec 16
abbrev Word := BitVec 32
abbrev Dword := BitVec 64

/-- The eight channels CH0 to CH7 (00 section 1). -/
inductive Chan where
  | ch0 | ch1 | ch2 | ch3 | ch4 | ch5 | ch6 | ch7
  deriving DecidableEq, Repr

/-- The eight registers of the register window (R195). -/
inductive Register where
  | id | ctrl | state | cpbaseLo | cpbaseHi | nudge | irqPend | irqMask
  deriving DecidableEq, Repr

end Sys2Proof
end

