-- ==== Sys2Proof/Syntax.lean ====
section
/-! DEFINITION. The commands the FS8 takes: one constructor for each row of spec/opcode_table.json. -/

namespace Sys2Proof

/-- The two edges of a full reset (R202): RSTN goes low and is held there, or rises (which ends a reset, and
stands for the whole of one when RSTN was not held before). -/
inductive RstnPhase where
  | held | released
  deriving DecidableEq, Repr

/-- The system bus's answer to a read (R174, R180): OKAY with the bytes read, lowest address first, or ERROR. -/
inductive ReadResponse where
  | okay (bytes : List Byte)
  | error
  deriving DecidableEq, Repr

/-- The system bus's answer to a write (R174, R180). -/
inductive WriteResponse where
  | okay
  | error
  deriving DecidableEq, Repr

/-- The commands. Each constructor's docstring names its row of the opcode table and the rule that governs it. -/
inductive Instr where
  /-- FULL_RESET (R202). -/
  | fullReset (phase : RstnPhase)
  /-- SOFT_RESET (R202): a CTRL write with SRST set, carrying these values of RUN and IRQEN. -/
  | softReset (run irqen : Bool)
  /-- CTRL_RUN (R186): a CTRL write that gives RUN this level and IRQEN the value it has. -/
  | ctrlRun (run : Bool)
  /-- CTRL_IRQEN (R199): a CTRL write that gives IRQEN this value and RUN the level it has. -/
  | ctrlIrqen (irqen : Bool)
  /-- REGISTER_WRITE (R196): a write of `value` to the four bytes at `offset` of the register window, in the byte lanes set in
  `lanes`. That one write carries at most four bytes is the model's choice: the spec names no widest write (log 36). -/
  | registerWrite (offset : Nat) (lanes : BitVec 4) (value : Word)
  /-- IRQ_PEND_WRITE (R198). -/
  | irqPendWrite (value : Word)
  /-- IRQ_MASK_WRITE (R199). -/
  | irqMaskWrite (value : Word)
  /-- NUDGE_SLOT_SAMPLE (R73): bits 7:0 of the NUDGE write, bit n for channel n. -/
  | nudgeSlotSample (channels : Byte)
  /-- NUDGE_JOURNAL_REREAD (R138): NUDGE bit 8. -/
  | nudgeJournalReread
  /-- NUDGE_TEST_SAMPLE (R161): NUDGE bit 9. -/
  | nudgeTestSample
  /-- NUDGE_TEST_INJECT (R170): NUDGE bit 10. -/
  | nudgeTestInject
  /-- STRT_RISING_EDGE (R201). -/
  | strtRisingEdge
  /-- BIT_CLOCK (R32): a rising edge of the channel's CHnCLK with this level on CHnDAT. -/
  | bitClock (ch : Chan) (bit : Bool)
  /-- CHECK_DECISION (R9): the bit clock that brings the exact expected position in CHECK. -/
  | checkDecision (ch : Chan) (bit : Bool)
  /-- LOCK_DECISION (R11): the bit clock that brings the exact expected position in LOCK or FLYWHEEL. -/
  | lockDecision (ch : Chan) (bit : Bool)
  /-- LATE_POSITION_DECISION (R12): the bit clock that brings the late position of a decision held open. -/
  | latePositionDecision (ch : Chan) (bit : Bool)
  /-- QUIET_ENTRY (R35): the bit clock at which the quiet run reaches 4096. -/
  | quietEntry (ch : Chan) (bit : Bool)
  /-- ACTIVE_ENTRY (R36): the bit clock of a QUIET window's 64th transition. -/
  | activeEntry (ch : Chan) (bit : Bool)
  /-- QUIET_WINDOW_END (R36): the 512th bit clock of a QUIET window short of 64 transitions. -/
  | quietWindowEnd (ch : Chan) (bit : Bool)
  /-- NOCLOCK_RECOVERY (R39): the bit clock at which the recovery count reaches 256. -/
  | noclockRecovery (ch : Chan) (bit : Bool)
  /-- GAP_TIMER_EXPIRY (R37). -/
  | gapTimerExpiry (ch : Chan)
  /-- IDLE_POLL_EXPIRY (R190). -/
  | idlePollExpiry
  /-- CAPTURE_HOLDOFF_EXPIRY (R130). -/
  | captureHoldoffExpiry (ch : Chan)
  /-- JOURNAL_HOLDOFF_EXPIRY (R147). -/
  | journalHoldoffExpiry
  /-- RESPONSE_TIMEOUT (R180). -/
  | responseTimeout
  /-- LATE_RESPONSE (R181). -/
  | lateResponse (r : ReadResponse)
  /-- HEADER_READ_COMPLETE (R188). -/
  | headerReadComplete (r : ReadResponse)
  /-- MIRROR_WRITE_COMPLETE (R194). -/
  | mirrorWriteComplete (r : WriteResponse)
  /-- SLOT_READ_COMPLETE (R75). -/
  | slotReadComplete (ch : Chan) (r : ReadResponse)
  /-- PROGRAM_FETCH_FIXED_COMPLETE (R77). -/
  | programFetchFixedComplete (ch : Chan) (r : ReadResponse)
  /-- PROGRAM_FETCH_TAIL_COMPLETE (R78). -/
  | programFetchTailComplete (ch : Chan) (r : ReadResponse)
  /-- PROGRAM_TORN (R79): the tail read that completes the fourth torn fetch in a row. -/
  | programTorn (ch : Chan) (r : ReadResponse)
  /-- GENERATION_WRITE_COMPLETE (R90). -/
  | generationWriteComplete (ch : Chan) (r : WriteResponse)
  /-- STATUS_WRITE_COMPLETE (R30). -/
  | statusWriteComplete (ch : Chan) (r : WriteResponse)
  /-- RE_READ_COMPLETE (R117). -/
  | reReadComplete (ch : Chan) (r : ReadResponse)
  /-- RECORD_BURST_COMPLETE (R123). -/
  | recordBurstComplete (ch : Chan) (r : WriteResponse)
  /-- MARK_WRITE_COMPLETE (R128). -/
  | markWriteComplete (ch : Chan) (r : WriteResponse)
  /-- JOURNAL_RECORD_WRITE_COMPLETE (R143). -/
  | journalRecordWriteComplete (r : WriteResponse)
  /-- JOURNAL_RE_READ_COMPLETE (R138). -/
  | journalReReadComplete (r : ReadResponse)
  /-- JOURNAL_MARK_WRITE_COMPLETE (R145). -/
  | journalMarkWriteComplete (r : WriteResponse)
  /-- BLOCK_WRITE_COMPLETE (R155). -/
  | blockWriteComplete (ch : Chan) (r : WriteResponse)
  /-- SERVED_WRITE_COMPLETE (R157). -/
  | servedWriteComplete (ch : Chan) (r : WriteResponse)
  /-- TEST_SAMPLE_READ_COMPLETE (R161). -/
  | testSampleReadComplete (r : ReadResponse)
  /-- BLOCK_FETCH_COMPLETE (R163). -/
  | blockFetchComplete (r : ReadResponse)
  /-- TEST_STATUS_WRITE_COMPLETE (R167). -/
  | testStatusWriteComplete (r : WriteResponse)
  /-- TEST_SOURCE_BIT_CLOCK (R168). -/
  | testSourceBitClock
  /-- TEST_FRAME_START (R166): the test bit clock that emits the last bit of a test frame. -/
  | testFrameStart
  /-- RATE_ERROR_INSERTION (R170): the test bit clock whose payload bit brings the error count to 10^k. -/
  | rateErrorInsertion
  /-- SYNC_CORRUPTION (R171): the test bit clock that ends a frame and starts a corrupted one. -/
  | syncCorruption
  /-- DRAIN_END (R192). -/
  | drainEnd
  /-- WRITEBACK_SETTLED (R60). -/
  | writebackSettled (ch : Chan)
  /-- TIMEBASE_TICK (R200). -/
  | timebaseTick
  deriving DecidableEq, Repr

end Sys2Proof
end

