-- ==== Sys2Proof/Config.lean ====
section
/-! DEFINITION. The free values: what the spec leaves open, named but not fixed. No proof can see what they are. -/

namespace Sys2Proof

/-- The byte that memory holds at an address after a write to it that did not complete with OKAY, or that was abandoned
in flight (R174: its bytes "may have reached memory in part, in any mixture"). The model draws the next one by a counter
in State; assumption log 11. -/
opaque Config.freeByte : Nat → Byte

/-- The 48-bit bus address that comes out for an address of 2^48 or more, which the spec does not state: an area may start
near the top of the 48-bit space and run past it (R114, R208); assumption log 12. -/
opaque Config.overflowAddress : Nat → BitVec 48

end Sys2Proof
end

