-- ==== Sys2Proof/Machine/Types.lean ====
section
/-! DEFINITION. The data each block of the FS8 holds, as the state tables of the chapters list it. -/

namespace Sys2Proof.Machine

/-! ## Channels -/

/-- One thing for each of the eight channels. -/
structure PerChannel (α : Type) where
  c0 : α
  c1 : α
  c2 : α
  c3 : α
  c4 : α
  c5 : α
  c6 : α
  c7 : α
  deriving DecidableEq, Repr

/-! ## Events (07) -/

/-- LOCK_LOST's reasons (R24). -/
inductive LossReason where
  | misses | clock | retune
  deriving DecidableEq, Repr

/-- The change classes of an application (R56). -/
inductive ChangeClass where
  | start | light | heavy
  deriving DecidableEq, Repr

/-- The causes of a CHANNEL_STATE (R69). -/
inductive Cause where
  | program | strt | drain | writeError
  deriving DecidableEq, Repr

/-- The reasons of a drop (R97, R122). -/
inductive DropReason where
  | noroom | stall
  deriving DecidableEq, Repr

/-- The run states (R45, R59 to R67). -/
inductive RunState where
  | idle | armed | running | halted | failed
  deriving DecidableEq, Repr

/-- The sync states (01 section 1.1). -/
inductive SyncState where
  | off | search | check | lock | flywheel
  deriving DecidableEq, Repr

/-- The activity states (02 section 2.2). -/
inductive ActivityState where
  | active | quiet | noclock
  deriving DecidableEq, Repr

/-- The inputs of a channel (R31). -/
inductive Input where
  | line | test
  deriving DecidableEq, Repr

/-- The device states (R185, R195). -/
inductive DeviceState where
  | dormant | starting | running | draining | stopped | faulted
  deriving DecidableEq, Repr

/-- The fault codes (R195). -/
inductive FaultCode where
  | none | badHeader | headerAccess | slotAccess | journalAccess
  deriving DecidableEq, Repr

/-- The reject reasons of a program, in the order of R52. -/
inductive RejectReason where
  | none | badKind | syncLength | syncMask | frameLength | tolerance | checkCount | flywheelLimit | slip
  | clockTimeout | windowCount | windowOrder | windowBounds | payloadSize | address | area | fetchError
  deriving DecidableEq, Repr

/-- The reject reasons of Test Source settings, in the order of R164. -/
inductive TestReject where
  | none | run | bitDivider | syncLength | frameLength | lfsrLength | lfsrTap | errorExponent | corruptBits
  | address | fetchError
  deriving DecidableEq, Repr

/-- The outcomes of a TEST_SOURCE event (R150). -/
inductive TestOutcome where
  | adopted | rejected | torn
  deriving DecidableEq, Repr

/-- What an event says: one constructor for each type of R150, with what the type carries. -/
inductive EventBody where
  | lockAcquired (inverted : Bool) (frame : Word)
  | lockLost (reason : LossReason) (lastFrame : Word)
  | activity (state : ActivityState)
  | polarityFlip (inverted : Bool)
  | programAdopted (change : ChangeClass) (generation : Word)
  | programRejected (reason : RejectReason) (generation : Word)
  | programTorn (generation : Word)
  | programSuperseded (replaced new : Word)
  | channelState (state : RunState) (runIndex : Byte) (cause : Cause)
  | captureDrops (reason : DropReason) (firstFrame : Word) (runIndex : Byte)
  | captureFault (address : BitVec 48)
  | badRelease (refused writeMark : Word)
  | statsFault (request : Half)
  | startEdge
  | testSource (outcome : TestOutcome) (generation : Word) (reason : TestReject)
  | deviceState (state : DeviceState)
  | journalOverflow (dropped : Half)
  deriving DecidableEq, Repr

/-- An event (R136): the channel it is of (none for the device), what it says, and when it was made. -/
structure Event where
  channel : Option Chan
  body : EventBody
  timestamp : Dword
  deriving DecidableEq, Repr

/-- The record a journal placement in WRITING has fixed (R142), and whether its second part is being written (R143). -/
structure JournalRecord where
  event : Event
  sequence : Word
  offset : Nat
  fromQueue : Bool
  secondPart : Bool
  deriving DecidableEq, Repr

/-- Where the Event Unit stands with the record it is placing (07 section 7.1). -/
inductive JournalPlacement where
  | idle
  | reread
  | blocked
  | writing (record : JournalRecord)
  deriving DecidableEq, Repr

/-- The Event Unit (07 section 7.1). -/
structure EventUnit where
  queue : List Event
  droppedCount : Half
  droppedTotal : Word
  writeMark : Word
  acceptedRelease : Word
  published : Word
  noticed : Word
  holdoff : Option Nat
  badReleases : Word
  lastBad : Option Word
  sequence : Word
  placement : JournalPlacement
  deriving DecidableEq, Repr

/-! ## Programs (03) -/

/-- A window of a RUN program: frame bits `start` to `start + length - 1` (R47). -/
structure Window where
  start : Nat
  length : Nat
  deriving DecidableEq, Repr

/-- The fields of a RUN program (R46 to R49, R205). -/
structure RunProgram where
  generation : Word
  cut : Bool
  startOnStrt : Bool
  keepFlywheel : Bool
  autoPolarity : Bool
  invert : Bool
  inputTest : Bool
  windowCount : Nat
  syncLength : Nat
  syncPattern : Dword
  syncMask : Dword
  frameLength : Nat
  searchTol : Nat
  checkTol : Nat
  lockTol : Nat
  checkCount : Nat
  flywheelLimit : Nat
  slipWindow : Nat
  decimation : Nat
  clockTimeoutUs : Nat
  captureNotifyBytes : Word
  windows : List Window
  deriving DecidableEq, Repr

/-- A Channel Program (R44): RUN, or HALT with its generation and its CUT flag (section 3.3). -/
inductive Program where
  | run (p : RunProgram)
  | halt (generation : Word) (cut : Bool)
  deriving DecidableEq, Repr

/-- A program fetch in flight (04 section 4.1). It is FIXED while it holds no fixed part and TAIL once it does (R77). -/
structure Fetch where
  generation : Word
  pointer : Dword
  fixedPart : Option (List Byte)
  deriving DecidableEq, Repr

/-- A capture area: its base address and its size in bytes (R114). -/
structure Area where
  base : Nat
  size : Nat
  deriving DecidableEq, Repr

/-- The Program Unit of a channel (03 section 3.1, 04 section 4.1). Its slot read, its generation write and its status write
are held by the port. -/
structure ProgramUnit where
  runState : RunState
  inForce : Option Program
  settings : Option RunProgram
  rejected : Word
  rejectReason : RejectReason
  runIndex : Byte
  area : Option Area
  latestAreaBase : Dword
  latestAreaSize : Word
  latestRelease : Word
  fetch : Option Fetch
  held : Option Program
  tornCount : Nat
  deriving DecidableEq, Repr

/-! ## Framing (01, 02) -/

/-- A decision held open keeps the distances of the exact and the early position (R12). -/
structure HeldDecision where
  exact : Option Nat
  early : Option Nat
  deriving DecidableEq, Repr

/-- The Frame Synchronizer of a channel (01 section 1.1). `history` is most recent first; its length is the fill count.
`spill` is newer first. -/
structure Synchronizer where
  state : SyncState
  history : List Bool
  spill : List Bool
  lastDistance : Option Nat
  heldOpen : Option HeldDecision
  position : Nat
  checkCount : Nat
  missCount : Nat
  inverted : Bool
  frameNumber : Word
  frameBegun : Bool
  exhausted : Bool
  deriving DecidableEq, Repr

/-- The attributes of a frame begun (R16). -/
structure Frame where
  number : Word
  flywheel : Bool
  slippedEarly : Bool
  slippedLate : Bool
  inverted : Bool
  distance : Nat
  timestamp : Dword
  firstOfLock : Bool
  deriving DecidableEq, Repr

/-- The Activity Monitor of a channel (02 section 2.2). `gap` is the gap timer in 100 ns ticks, none when it is stopped. -/
structure Monitor where
  state : ActivityState
  evaluating : Bool
  lastBit : Option Bool
  quietRun : Nat
  windowPosition : Nat
  windowTransitions : Nat
  recovery : Nat
  gap : Option Nat
  deriving DecidableEq, Repr

/-! ## Capture (05, 06) -/

/-- The two staging buffers of a channel. -/
inductive BufferId where
  | a | b
  deriving DecidableEq, Repr

/-- The three states of a staging buffer (05 section 5.3). -/
inductive BufferState where
  | free | filling | closed
  deriving DecidableEq, Repr

/-- The window plan of a record (05 section 5.1): the windows and the generation of the program they come from. -/
structure WindowPlan where
  windows : List Window
  generation : Word
  deriving DecidableEq, Repr

/-- The record in fill (05 section 5.1). Windows complete in list order, so windows 0 to `cursor - 1` are the complete ones;
`payload` holds their bytes, and `partialWindow` the bits so far of window `cursor`, latest first. The frame of the record, the window
plan, the cursor, the mask and the committed CRC are held with the record, so only while one is in fill: that is the model's choice,
and the spec gives them no value otherwise, but the cursor and the mask in R92 (log 35). -/
structure Fill where
  buffer : BufferId
  frame : Frame
  runIndex : Byte
  plan : WindowPlan
  cursor : Nat
  payload : List Byte
  partialWindow : List Bool
  crc : Word
  deriving DecidableEq, Repr

/-- A held drop tally (R119). -/
structure Tally where
  first : Word
  last : Word
  count : Word
  timestamp : Dword
  deriving DecidableEq, Repr

/-- A closed record in the writeback queue, with the drop tally it holds (R98, R119). -/
structure ClosedRecord where
  buffer : BufferId
  bytes : List Byte
  frameNumber : Word
  timestamp : Dword
  tally : Option Tally
  deriving DecidableEq, Repr

/-- The Capture Assembler of a channel (05 section 5.1). A buffer named by neither the fill nor the queue is FREE.
With no record in fill, nothing is held of the items that describe one (log 35). -/
structure Capture where
  fill : Option Fill
  queue : List ClosedRecord
  phase : Nat
  deriving DecidableEq, Repr

/-- The contents of an open drop spell (R125). -/
structure DropSpell where
  first : Word
  last : Word
  count : Word
  noroom : Bool
  stall : Bool
  timestamp : Dword
  deriving DecidableEq, Repr

/-- A group (R120): whether it is a GAP alone (R127), whether it holds a GAP, the length of its PAD, the offset in the area
at which it starts (of the PAD if it has one), and its size without the PAD. -/
structure Group where
  alone : Bool
  gap : Bool
  pad : Nat
  offset : Nat
  size : Nat
  deriving DecidableEq, Repr

/-- One record burst: its address and its bytes (R123). -/
structure Burst where
  address : Nat
  bytes : List Byte
  deriving DecidableEq, Repr

/-- Where the Writeback Unit stands with the group it is placing (06 section 6.1). In WRITING, `bursts` are those that have
not completed, the first of them waiting or in flight. -/
inductive Placement where
  | idle
  | reread (group : Group)
  | writing (group : Group) (bursts : List Burst)
  deriving DecidableEq, Repr

/-- The Writeback Unit of a channel (06 section 6.1). Its burst, re-read and mark write are held by the port. `runMarked` says
that a mark write has completed since the run start: what the published write mark shows is then of this run (log 20). -/
structure Writeback where
  writeMark : Word
  acceptedRelease : Word
  published : Word
  runMarked : Bool
  notified : Word
  holdoff : Option Nat
  lastBad : Option Word
  spell : Option DropSpell
  placement : Placement
  deriving DecidableEq, Repr

/-! ## Statistics (08) -/

/-- The sixteen counters of a channel (08 section 8.1). -/
structure Counters where
  framesLocked : Word
  framesCaptured : Word
  flywheelFrames : Word
  syncBitErrors : Word
  losses : Word
  slips : Word
  polarityFlips : Word
  dropsNoroom : Word
  dropsStall : Word
  truncatedRecords : Word
  tornReads : Word
  quietEntries : Word
  noclockEntries : Word
  badReleases : Word
  recordsWritten : Word
  bytesWritten : Dword
  deriving DecidableEq, Repr

/-- A snapshot: its time and a copy of the counters (R153). -/
structure Snapshot where
  time : Dword
  counters : Counters
  deriving DecidableEq, Repr

/-- A channel's part of the Statistics Unit (08 section 8.1). Its snapshot write is held by the port. -/
structure Statistics where
  counters : Counters
  latch : Option Snapshot
  latchedRequest : Half
  served : Half
  deriving DecidableEq, Repr

/-- Everything a channel holds. -/
structure Channel where
  prog : ProgramUnit
  sync : Synchronizer
  monitor : Monitor
  capture : Capture
  wb : Writeback
  stats : Statistics
  deriving DecidableEq, Repr

/-! ## Test Source (09) -/

/-- Whether the Test Source is emitting bits. -/
inductive SourceState where
  | stopped | running
  deriving DecidableEq, Repr

/-- One set of Test Source settings (09 section 9.3) with its generation. -/
structure TestSettings where
  generation : Word
  run : Nat
  syncLength : Nat
  lfsrLength : Nat
  lfsrTap : Nat
  syncPattern : Dword
  frameLength : Nat
  bitDivider : Nat
  errorExponent : Nat
  corruptBits : Nat
  corruptPeriod : Nat
  seed : Word
  deriving DecidableEq, Repr

/-- The block fetch in flight (R162). -/
structure BlockFetch where
  generation : Word
  pointer : Dword
  deriving DecidableEq, Repr

/-- The Test Source (09 section 9.1). Register bit k of the LFSR is bit k - 1 of `lfsr`. Its sample read and its status write
are held by the port. -/
structure TestSource where
  state : SourceState
  settings : Option TestSettings
  waiting : Option TestSettings
  adopted : Word
  rejected : Word
  rejectReason : TestReject
  fetch : Option BlockFetch
  position : Nat
  lfsr : Word
  errorCount : Nat
  corruptionCount : Nat
  corrupted : Bool
  inject : Bool
  stopRequested : Bool
  deriving DecidableEq, Repr

/-! ## Memory port (10) -/

/-- The requests of the table in 10 section 10.1. -/
inductive Request where
  | headerRead
  | mirrorWrite
  | slotRead (ch : Chan)
  | fetchFixed (ch : Chan)
  | fetchTail (ch : Chan)
  | generationWrite (ch : Chan)
  | statusWrite (ch : Chan)
  | reRead (ch : Chan)
  | recordBurst (ch : Chan)
  | markWrite (ch : Chan)
  | journalRecord
  | journalReRead
  | journalMark
  | blockWrite (ch : Chan)
  | servedWrite (ch : Chan)
  | testSample
  | blockFetch
  | testStatus
  deriving DecidableEq, Repr

/-- The classes of requests (R175). -/
inductive RequestClass where
  | a | b | c
  deriving DecidableEq, Repr

/-- The transaction in flight (R174): its request, address and length, the bytes of a write (none for a read), and whether
it was in flight at an entry to STARTING, so that nobody takes its result (R184). -/
structure Transaction where
  request : Request
  address : Nat
  length : Nat
  data : List Byte
  orphan : Bool
  deriving DecidableEq, Repr

/-- The Memory Port Arbiter (10 section 10.2). `arrivals` is the model's own: the requests made by the command under way, the
earliest first, each as the transaction it would issue at the moment it was made; between commands there are none (log 4). -/
structure Port where
  classA : List Request
  classB : List Request
  classC : PerChannel Bool
  arrivals : List Transaction
  roundRobin : Chan
  guard : Nat
  inFlight : Option Transaction
  timer : Option Nat
  deriving DecidableEq, Repr

/-- The requests of the blocks that FAULTED froze: those that waited at the entry, and the one in flight (R70, R135, R152, R160,
R193). They are the blocks' own record of what they have outstanding; the port itself holds none of them any more (R184; log
34). -/
structure FrozenRequests where
  waiting : List Request
  inFlight : Option Request
  deriving DecidableEq, Repr

/-- Where a coalescing write stands (R30, R90, R128, R145, R167, R194). -/
inductive WriteStatus where
  | none | waiting | inFlight | inFlightWithOneWaiting
  deriving DecidableEq, Repr

/-- Where the delivery of a snapshot stands (08 section 8.1). -/
inductive SnapshotWrite where
  | none | blockWaiting | blockInFlight | servedWaiting | servedInFlight
  deriving DecidableEq, Repr

/-! ## Device Control (11) -/

/-- The session parameters (11 section 11.1). -/
structure SessionParams where
  idlePollMs : Half
  journalThreshold : Half
  holdoffUs : Word
  journalBase : Dword
  journalSize : Word
  timebaseOnStrt : Bool
  deriving DecidableEq, Repr

/-- The registers that hold something (R195): CTRL's RUN and IRQEN, CPBASE, IRQ_PEND and IRQ_MASK. -/
structure Registers where
  run : Bool
  irqen : Bool
  cpbaseLo : Word
  cpbaseHi : Word
  irqPend : BitVec 11
  irqMask : BitVec 11
  deriving DecidableEq, Repr

end Sys2Proof.Machine
end

