-- ==== Sys2Proof/Machine/State.lean ====
section
/-! DEFINITION. The state of the FS8, the reasons a step can stop, and the state after reset. -/

namespace Sys2Proof.Machine

/-- Everything the spec gives the FS8, the queue of commands that wait (`pending`), the image of the bytes the FS8 has placed
in system memory (`mem`) and the counter free bytes are drawn with (`freeCount`). `resetHeld` is RSTN held low (R202). `frozen` is
what the blocks had outstanding when FAULTED froze them (R70, R193; log 34). -/
structure State where
  pending : List Instr
  resetHeld : Bool
  device : DeviceState
  faultCode : FaultCode
  sessionBase : Nat
  params : SessionParams
  idlePoll : Option Nat
  timebase : Dword
  regs : Registers
  chans : PerChannel Channel
  events : EventUnit
  test : TestSource
  port : Port
  frozen : FrozenRequests
  mem : List Host.Cell
  freeCount : Nat
  deriving DecidableEq, Repr

/-- Why a step can stop with a fault. -/
inductive Fault where
  /-- Raised by the completion of a read whose command answers OKAY with another number of bytes than the read asked for. The
  bus cannot do that (R174); such a command is not well-formed. Safe: the model stops where the spec says nothing. -/
  | malformedResponse
  deriving DecidableEq, Repr

/-- Why a step can have no meaning. -/
inductive Refusal where
  /-- Raised by an arm of `exec` whose command has no meaning yet. Safe: the model stops. -/
  | notModelled (mnemonic : String)
  deriving DecidableEq, Repr

/-! ## The condition after a reset, block by block -/

/-- R45, R70. -/
def ProgramUnit.reset : ProgramUnit where
  runState := .idle
  inForce := none
  settings := none
  rejected := 0
  rejectReason := .none
  runIndex := 0
  area := none
  latestAreaBase := 0
  latestAreaSize := 0
  latestRelease := 0
  fetch := none
  held := none
  tornCount := 0

/-- R1. -/
def Synchronizer.reset : Synchronizer where
  state := .off
  history := []
  spill := []
  lastDistance := none
  heldOpen := none
  position := 0
  checkCount := 0
  missCount := 0
  inverted := false
  frameNumber := 0
  frameBegun := false
  exhausted := false

/-- R34. -/
def Monitor.reset : Monitor where
  state := .active
  evaluating := false
  lastBit := none
  quietRun := 0
  windowPosition := 0
  windowTransitions := 0
  recovery := 0
  gap := none

/-- R92. -/
def Capture.reset : Capture where
  fill := none
  queue := []
  phase := 0

/-- R113. -/
def Writeback.reset : Writeback where
  writeMark := 0
  acceptedRelease := 0
  published := 0
  runMarked := false
  notified := 0
  holdoff := none
  lastBad := none
  spell := none
  placement := .idle

/-- Every counter at 0 (R152). -/
def Counters.zero : Counters where
  framesLocked := 0
  framesCaptured := 0
  flywheelFrames := 0
  syncBitErrors := 0
  losses := 0
  slips := 0
  polarityFlips := 0
  dropsNoroom := 0
  dropsStall := 0
  truncatedRecords := 0
  tornReads := 0
  quietEntries := 0
  noclockEntries := 0
  badReleases := 0
  recordsWritten := 0
  bytesWritten := 0

/-- R152. -/
def Statistics.reset : Statistics where
  counters := .zero
  latch := none
  latchedRequest := 0
  served := 0

/-- A channel after a reset, and at entry of the device to STARTING. -/
def Channel.reset : Channel where
  prog := .reset
  sync := .reset
  monitor := .reset
  capture := .reset
  wb := .reset
  stats := .reset

/-- R135. -/
def EventUnit.reset : EventUnit where
  queue := []
  droppedCount := 0
  droppedTotal := 0
  writeMark := 0
  acceptedRelease := 0
  published := 0
  noticed := 0
  holdoff := none
  badReleases := 0
  lastBad := none
  sequence := 0
  placement := .idle

/-- R160. -/
def TestSource.reset : TestSource where
  state := .stopped
  settings := none
  waiting := none
  adopted := 0
  rejected := 0
  rejectReason := .none
  fetch := none
  position := 0
  lfsr := 0
  errorCount := 0
  corruptionCount := 0
  corrupted := false
  inject := false
  stopRequested := false

/-- R184. -/
def Port.reset : Port where
  classA := []
  classB := []
  classC := ⟨false, false, false, false, false, false, false, false⟩
  arrivals := []
  roundRobin := .ch0
  guard := 0
  inFlight := none
  timer := none

/-- Nothing is frozen: the device is not FAULTED. -/
def FrozenRequests.none : FrozenRequests where
  waiting := []
  inFlight := Option.none

/-- R185. -/
def SessionParams.reset : SessionParams where
  idlePollMs := 0
  journalThreshold := 0
  holdoffUs := 0
  journalBase := 0
  journalSize := 0
  timebaseOnStrt := false

/-- R195: the full-reset values. -/
def Registers.reset : Registers where
  run := false
  irqen := false
  cpbaseLo := 0
  cpbaseHi := 0
  irqPend := 0
  irqMask := 0

/-- The machine right after a full reset: DORMANT, fault code NONE, the timebase at 0 and every block in its reset condition
(R185, R202). -/
def State.reset : State where
  pending := []
  resetHeld := false
  device := .dormant
  faultCode := .none
  sessionBase := 0
  params := .reset
  idlePoll := none
  timebase := 0
  regs := .reset
  chans := ⟨.reset, .reset, .reset, .reset, .reset, .reset, .reset, .reset⟩
  events := .reset
  test := .reset
  port := .reset
  frozen := .none
  mem := []
  freeCount := 0

end Sys2Proof.Machine
end

