-- ==== Sys2Proof/Machine/Operands.lean ====
section
/-! DEFINITION. How the bytes of a command's operand are read as the fields of 12, and how fields are laid out as bytes
(R203: little-endian, at the offset of the table). Bytes marked zero or not examined are read by nothing here (R204). -/

namespace Sys2Proof.Machine

/-! ## Little-endian fields (R203) -/

/-- The byte at an offset. -/
def byteAt (bytes : List Byte) (offset : Nat) : Byte := bytes.getD offset 0

/-- The little-endian value of the `size` bytes at an offset. -/
def fieldAt (bytes : List Byte) : (offset size : Nat) → Nat
  | _, 0 => 0
  | offset, size + 1 => (byteAt bytes offset).toNat + 256 * fieldAt bytes (offset + 1) size

/-- The two-byte field at an offset. -/
def halfAt (bytes : List Byte) (offset : Nat) : Half := BitVec.ofNat 16 (fieldAt bytes offset 2)

/-- The four-byte field at an offset. -/
def wordAt (bytes : List Byte) (offset : Nat) : Word := BitVec.ofNat 32 (fieldAt bytes offset 4)

/-- The eight-byte field at an offset. -/
def dwordAt (bytes : List Byte) (offset : Nat) : Dword := BitVec.ofNat 64 (fieldAt bytes offset 8)

/-- A number as `size` bytes, least significant first. -/
def bytesOf : (size value : Nat) → List Byte
  | 0, _ => []
  | size + 1, value => BitVec.ofNat 8 value :: bytesOf size (value / 256)

/-! ## Addresses and sizes (R208) -/

/-- Bits 63:48 are zero and the address is a multiple of `align` (R208). -/
def addressUsable (address : Dword) (align : Nat) : Bool :=
  address.toNat < 2 ^ 48 && address.toNat % align == 0

/-- A power of two from `2 ^ low` to `2 ^ high`. -/
def powerOfTwoIn (low high size : Nat) : Bool :=
  (List.range (high + 1 - low)).any fun k => size == 2 ^ (low + k)

/-! ## Control Page header (12.1) -/

/-- The host-owned header fields that the header read judges (R188). -/
structure Header where
  pageVersion : Word
  params : SessionParams
  journalRelease : Word
  deriving DecidableEq, Repr

/-- The header in the 256 bytes of the header read. -/
def Header.parse (bytes : List Byte) : Header where
  pageVersion := wordAt bytes 0
  params :=
    { idlePollMs := halfAt bytes 8
      journalThreshold := halfAt bytes 10
      holdoffUs := wordAt bytes 12
      journalBase := dwordAt bytes 16
      journalSize := wordAt bytes 24
      timebaseOnStrt := (wordAt bytes 4).getLsbD 0 }
  journalRelease := wordAt bytes 28

/-- R188: when a header is valid. -/
def Header.valid (h : Header) : Bool :=
  h.pageVersion == 1
    && (1 ≤ h.params.idlePollMs.toNat && h.params.idlePollMs.toNat ≤ 255)
    && (1 ≤ h.params.journalThreshold.toNat && h.params.journalThreshold.toNat ≤ 255)
    && h.params.holdoffUs.toNat ≤ 65535
    && addressUsable h.params.journalBase 4096
    && powerOfTwoIn 12 20 h.params.journalSize.toNat

/-! ## Channel Slot (12.2) -/

/-- The host-owned words of a slot (04 section 4.3). -/
structure SlotWords where
  generation : Word
  pointer : Dword
  areaBase : Dword
  areaSize : Word
  release : Word
  statsRequest : Half
  statsClear : Bool
  deriving DecidableEq, Repr

/-- The slot words in the 32 bytes of a slot read. -/
def SlotWords.parse (bytes : List Byte) : SlotWords where
  generation := wordAt bytes 0
  pointer := dwordAt bytes 4
  areaBase := dwordAt bytes 12
  areaSize := wordAt bytes 20
  release := wordAt bytes 24
  statsRequest := halfAt bytes 28
  statsClear := (halfAt bytes 30).getLsbD 0

/-! ## Channel Program (12.3) -/

/-- The kind byte of a program's fixed part (R205). -/
def programKind (fixedPart : List Byte) : Nat := (byteAt fixedPart 4).toNat

/-- The window_count byte of a program's fixed part. -/
def programWindowCount (fixedPart : List Byte) : Nat := (byteAt fixedPart 6).toNat

/-- R77: the offset from the pointer and the length of the second read of a fetch. -/
def secondRead (fixedPart : List Byte) : Nat × Nat :=
  if programKind fixedPart = 2 then (8, 8)
  else if 1 ≤ programWindowCount fixedPart ∧ programWindowCount fixedPart ≤ 8 then
    (48, programWindowCount fixedPart * 8 + 8)
  else (48, 8)

/-- The first `count` windows of a window list. -/
def parseWindows (bytes : List Byte) : (offset count : Nat) → List Window
  | _, 0 => []
  | offset, count + 1 =>
    ⟨fieldAt bytes offset 4, fieldAt bytes (offset + 4) 4⟩ :: parseWindows bytes (offset + 8) count

/-- R77: generation_tail is the first four of the last eight bytes of the second read. -/
def tailGeneration (secondBytes : List Byte) : Word := wordAt secondBytes (secondBytes.length - 8)

/-- The fields of a RUN program in its two reads (R205). -/
def RunProgram.parse (fixedPart secondBytes : List Byte) : RunProgram :=
  let flags := byteAt fixedPart 5
  { generation := wordAt fixedPart 0
    cut := flags.getLsbD 0
    startOnStrt := flags.getLsbD 1
    keepFlywheel := flags.getLsbD 2
    autoPolarity := flags.getLsbD 3
    invert := flags.getLsbD 4
    inputTest := flags.getLsbD 5
    windowCount := programWindowCount fixedPart
    syncLength := (byteAt fixedPart 7).toNat
    syncPattern := dwordAt fixedPart 8
    syncMask := dwordAt fixedPart 16
    frameLength := fieldAt fixedPart 24 4
    searchTol := (byteAt fixedPart 28).toNat
    checkTol := (byteAt fixedPart 29).toNat
    lockTol := (byteAt fixedPart 30).toNat
    checkCount := (byteAt fixedPart 31).toNat
    flywheelLimit := (byteAt fixedPart 32).toNat
    slipWindow := (byteAt fixedPart 33).toNat
    decimation := (byteAt fixedPart 34).toNat
    clockTimeoutUs := (byteAt fixedPart 35).toNat
    captureNotifyBytes := wordAt fixedPart 36
    windows := parseWindows secondBytes 0 ((secondBytes.length - 8) / 8) }

/-- The masked count M: the mask bits from 0 to L - 1 that are 1 (R4). -/
def maskedCount (length : Nat) (mask : Dword) : Nat :=
  ((List.range length).filter mask.getLsbD).length

/-- The bytes a window takes in a payload (R47). -/
def Window.bytes (w : Window) : Nat := (w.length + 7) / 8

/-- R53, WINDOW_ORDER: each window starts at or after the end of the one before it. -/
def windowsInOrder : List Window → Bool
  | w :: v :: rest => w.start + w.length ≤ v.start && windowsInOrder (v :: rest)
  | _ => true

/-- R53: the window limit. -/
def RunProgram.windowLimit (p : RunProgram) : Nat :=
  if p.slipWindow = 0 then p.frameLength else p.frameLength - 1

/-- R52, R53: tests 2 to 13 on a RUN program, in the order of the table; the first that fails gives the reason. -/
def RunProgram.validate (p : RunProgram) : RejectReason :=
  let m := maskedCount p.syncLength p.syncMask
  if p.syncLength < 8 ∨ 64 < p.syncLength then .syncLength
  else if m < 8 then .syncMask
  else if p.frameLength < p.syncLength + 8 ∨ 65536 < p.frameLength then .frameLength
  else if [p.searchTol, p.checkTol, p.lockTol].any (fun t => 7 < t || m < 4 * t) then .tolerance
  else if p.checkCount = 0 ∨ 15 < p.checkCount then .checkCount
  else if 15 < p.flywheelLimit then .flywheelLimit
  else if 1 < p.slipWindow then .slip
  else if p.clockTimeoutUs = 0 then .clockTimeout
  else if p.windowCount = 0 ∨ 8 < p.windowCount then .windowCount
  else if !windowsInOrder p.windows then .windowOrder
  else if p.windows.any (fun w => w.length < 8 || p.windowLimit < w.start + w.length) then .windowBounds
  else if 8192 < (p.windows.map Window.bytes).sum then .payloadSize
  else .none

/-- The program in the two reads of a fetch, and the reason of the first test of R52 it fails (NONE for a valid one). -/
def parseProgram (fixedPart secondBytes : List Byte) : Program × RejectReason :=
  if programKind fixedPart = 2 then
    (.halt (wordAt fixedPart 0) ((byteAt fixedPart 5).getLsbD 0), .none)
  else
    let p := RunProgram.parse fixedPart secondBytes
    (.run p, if programKind fixedPart = 1 then p.validate else .badKind)

/-! ## Test Source Block (12.6) -/

/-- The settings in the 40 bytes of a block fetch. -/
def TestSettings.parse (bytes : List Byte) : TestSettings where
  generation := wordAt bytes 0
  run := (byteAt bytes 4).toNat
  syncLength := (byteAt bytes 5).toNat
  lfsrLength := (byteAt bytes 6).toNat
  lfsrTap := (byteAt bytes 7).toNat
  syncPattern := dwordAt bytes 8
  frameLength := fieldAt bytes 16 4
  bitDivider := fieldAt bytes 20 2
  errorExponent := (byteAt bytes 22).toNat
  corruptBits := (byteAt bytes 23).toNat
  corruptPeriod := (byteAt bytes 24).toNat
  seed := wordAt bytes 28

/-- R164: tests 1 to 8 on a block's contents, in their order. -/
def TestSettings.validate (t : TestSettings) : TestReject :=
  if 1 < t.run then .run
  else if t.bitDivider < 4 ∨ 4096 < t.bitDivider then .bitDivider
  else if t.syncLength < 8 ∨ 64 < t.syncLength then .syncLength
  else if t.frameLength < t.syncLength + 8 ∨ 65536 < t.frameLength then .frameLength
  else if t.lfsrLength < 7 ∨ 31 < t.lfsrLength then .lfsrLength
  else if t.lfsrTap = 0 ∨ t.lfsrLength ≤ t.lfsrTap then .lfsrTap
  else if 7 < t.errorExponent then .errorExponent
  else if t.corruptPeriod ≠ 0 ∧ (t.corruptBits = 0 ∨ 8 < t.corruptBits ∨ t.syncLength < t.corruptBits) then
    .corruptBits
  else .none

/-- The two words a test sample read brings: test_block_pointer and test_generation (R161). -/
def testSampleWords (bytes : List Byte) : Dword × Word := (dwordAt bytes 0, wordAt bytes 8)

/-- The generation_tail of a Test Source Block. -/
def blockTail (bytes : List Byte) : Word := wordAt bytes 32

end Sys2Proof.Machine
end

