-- ==== Sys2Proof/Machine/Flags.lean ====
section
/-! DEFINITION. The codes of the enumerated fields (R150, R195, 12), counters that saturate (R151), marks (00 section 5.4)
and the interrupt bits and line (R198, R199). -/

namespace Sys2Proof.Machine

/-! ## Codes -/

/-- The channel's number, 0 to 7. -/
def chanNumber : Chan → Nat
  | .ch0 => 0 | .ch1 => 1 | .ch2 => 2 | .ch3 => 3 | .ch4 => 4 | .ch5 => 5 | .ch6 => 6 | .ch7 => 7

/-- The channel that follows, CH0 following CH7 (R178). -/
def chanAfter : Chan → Chan
  | .ch0 => .ch1 | .ch1 => .ch2 | .ch2 => .ch3 | .ch3 => .ch4 | .ch4 => .ch5 | .ch5 => .ch6 | .ch6 => .ch7 | .ch7 => .ch0

/-- The channels in order, CH0 to CH7. -/
def allChans : List Chan := [.ch0, .ch1, .ch2, .ch3, .ch4, .ch5, .ch6, .ch7]

/-- 0 NORMAL, 1 INVERTED. -/
def inversionCode (inverted : Bool) : Nat := if inverted then 1 else 0

def lossCode : LossReason → Nat
  | .misses => 1 | .clock => 2 | .retune => 3

def activityCode : ActivityState → Nat
  | .active => 0 | .quiet => 1 | .noclock => 2

def changeCode : ChangeClass → Nat
  | .start => 1 | .light => 2 | .heavy => 3

def runStateCode : RunState → Nat
  | .idle => 0 | .armed => 1 | .running => 2 | .halted => 3 | .failed => 4

def syncStateCode : SyncState → Nat
  | .off => 0 | .search => 1 | .check => 2 | .lock => 3 | .flywheel => 4

def causeCode : Cause → Nat
  | .program => 1 | .strt => 2 | .drain => 3 | .writeError => 4

def dropReasonCode : DropReason → Nat
  | .noroom => 1 | .stall => 2

def testOutcomeCode : TestOutcome → Nat
  | .adopted => 1 | .rejected => 2 | .torn => 3

/-- The device state codes of STATE; the event and the mirror use the same 1, 2 and 3 (R195). -/
def deviceCode : DeviceState → Nat
  | .dormant => 0 | .running => 1 | .draining => 2 | .stopped => 3 | .starting => 4 | .faulted => 5

def faultCodeNumber : FaultCode → Nat
  | .none => 0 | .badHeader => 1 | .headerAccess => 2 | .slotAccess => 3 | .journalAccess => 4

/-- 0 NONE, then the reason's number in the order of R52. -/
def rejectCode : RejectReason → Nat
  | .none => 0 | .badKind => 1 | .syncLength => 2 | .syncMask => 3 | .frameLength => 4 | .tolerance => 5
  | .checkCount => 6 | .flywheelLimit => 7 | .slip => 8 | .clockTimeout => 9 | .windowCount => 10
  | .windowOrder => 11 | .windowBounds => 12 | .payloadSize => 13 | .address => 14 | .area => 15
  | .fetchError => 16

/-- 0 NONE, then the reason's place in the table of R164. -/
def testRejectCode : TestReject → Nat
  | .none => 0 | .run => 1 | .bitDivider => 2 | .syncLength => 3 | .frameLength => 4 | .lfsrLength => 5
  | .lfsrTap => 6 | .errorExponent => 7 | .corruptBits => 8 | .address => 9 | .fetchError => 10

/-! ## The register window -/

/-- The offset of a register in the window (R195). -/
def registerOffset : Register → Nat
  | .id => 0x00 | .ctrl => 0x04 | .state => 0x08 | .cpbaseLo => 0x0C | .cpbaseHi => 0x10 | .nudge => 0x14
  | .irqPend => 0x18 | .irqMask => 0x1C

/-- The registers in the order of their offsets. -/
def allRegisters : List Register := [.id, .ctrl, .state, .cpbaseLo, .cpbaseHi, .nudge, .irqPend, .irqMask]

/-- The register one of whose four bytes lies at an offset, none beyond the window (R195). -/
def registerAt (offset : Nat) : Option Register := allRegisters[offset / 4]?

/-! ## Counters and marks -/

/-- A counter of any width raised by an amount, staying at its maximum (R151, 00 section 5.7). -/
def saturate {w : Nat} (counter : BitVec w) (amount : Nat) : BitVec w :=
  BitVec.ofNat w (min (counter.toNat + amount) (2 ^ w - 1))

/-- The fill of an area: its write mark minus its release mark, modulo 2^32 (00 section 5.4). -/
def fillOf (writeMark release : Word) : Nat := (writeMark - release).toNat

/-- The room of an area: its size minus its fill. -/
def roomOf (size : Nat) (writeMark release : Word) : Nat := size - fillOf writeMark release

/-- R116, R139: a release value is accepted when it lies from the accepted release mark up to the write mark. -/
def releaseAcceptable (value accepted writeMark : Word) : Bool :=
  (value - accepted).toNat ≤ (writeMark - accepted).toNat

/-! ## Interrupts -/

/-- The IRQ_PEND bits (R195). -/
inductive IrqSource where
  | capture (ch : Chan)
  | journal
  | fault
  | drained
  deriving DecidableEq, Repr

/-- The bit of a source in IRQ_PEND and IRQ_MASK. -/
def irqBit : IrqSource → Nat
  | .capture ch => chanNumber ch
  | .journal => 8
  | .fault => 9
  | .drained => 10

/-- IRQ_PEND with a source's bit set (R198). -/
def setPending (pend : BitVec 11) (source : IrqSource) : BitVec 11 := pend ||| BitVec.ofNat 11 (2 ^ irqBit source)

/-- R199: whether the IRQ_N pin is driven low. -/
def Registers.irqLow (r : Registers) : Bool := r.irqen && (r.irqPend &&& ~~~r.irqMask) != 0

end Sys2Proof.Machine
end

