-- ==== Sys2Proof/Machine/Ops.lean ====
section
/-! DEFINITION. The named operations over the state: one channel's data, the register window, and the image of system
memory. -/

namespace Sys2Proof.Machine

/-! ## One channel of eight -/

def PerChannel.get {α : Type} (p : PerChannel α) : Chan → α
  | .ch0 => p.c0 | .ch1 => p.c1 | .ch2 => p.c2 | .ch3 => p.c3 | .ch4 => p.c4 | .ch5 => p.c5 | .ch6 => p.c6 | .ch7 => p.c7

def PerChannel.set {α : Type} (p : PerChannel α) (ch : Chan) (v : α) : PerChannel α :=
  match ch with
  | .ch0 => { p with c0 := v }
  | .ch1 => { p with c1 := v }
  | .ch2 => { p with c2 := v }
  | .ch3 => { p with c3 := v }
  | .ch4 => { p with c4 := v }
  | .ch5 => { p with c5 := v }
  | .ch6 => { p with c6 := v }
  | .ch7 => { p with c7 := v }

def PerChannel.map {α β : Type} (f : α → β) (p : PerChannel α) : PerChannel β :=
  ⟨f p.c0, f p.c1, f p.c2, f p.c3, f p.c4, f p.c5, f p.c6, f p.c7⟩

/-- The same thing for every channel. -/
def PerChannel.all {α : Type} (v : α) : PerChannel α := ⟨v, v, v, v, v, v, v, v⟩

/-- What a channel holds. -/
def State.chan (s : State) (ch : Chan) : Channel := s.chans.get ch

/-- Changes what one channel holds. -/
def State.modChan (s : State) (ch : Chan) (f : Channel → Channel) : State :=
  { s with chans := s.chans.set ch (f (s.chan ch)) }

def State.modProg (s : State) (ch : Chan) (f : ProgramUnit → ProgramUnit) : State :=
  s.modChan ch fun c => { c with prog := f c.prog }

def State.modSync (s : State) (ch : Chan) (f : Synchronizer → Synchronizer) : State :=
  s.modChan ch fun c => { c with sync := f c.sync }

def State.modMonitor (s : State) (ch : Chan) (f : Monitor → Monitor) : State :=
  s.modChan ch fun c => { c with monitor := f c.monitor }

def State.modCapture (s : State) (ch : Chan) (f : Capture → Capture) : State :=
  s.modChan ch fun c => { c with capture := f c.capture }

def State.modWb (s : State) (ch : Chan) (f : Writeback → Writeback) : State :=
  s.modChan ch fun c => { c with wb := f c.wb }

def State.modStats (s : State) (ch : Chan) (f : Statistics → Statistics) : State :=
  s.modChan ch fun c => { c with stats := f c.stats }

/-- Changes a channel's counters (R151). -/
def State.count (s : State) (ch : Chan) (f : Counters → Counters) : State :=
  s.modStats ch fun st => { st with counters := f st.counters }

/-- The same operation on each channel, CH0 to CH7 in order. -/
def State.forChans (s : State) (f : Chan → State → State) : State :=
  allChans.foldl (fun t ch => f ch t) s

/-! ## Views of what a channel holds -/

/-- The adopted generation: the generation of the program in force, 0 when there is none (R44, R59). -/
def ProgramUnit.adopted (p : ProgramUnit) : Word :=
  match p.inForce with
  | none => 0
  | some (.run r) => r.generation
  | some (.halt g _) => g

/-- A program's generation. -/
def Program.generation : Program → Word
  | .run r => r.generation
  | .halt g _ => g

/-- A program's CUT flag. -/
def Program.cut : Program → Bool
  | .run r => r.cut
  | .halt _ c => c

/-- R31: the input a channel selects. -/
def ProgramUnit.input (p : ProgramUnit) : Input :=
  match p.settings with
  | none => .line
  | some r => if r.inputTest then .test else .line

/-- R40: the clock timeout in force, in microseconds. -/
def ProgramUnit.clockTimeout (p : ProgramUnit) : Nat :=
  match p.settings with
  | none => 255
  | some r => r.clockTimeoutUs

/-- The state of a staging buffer (05 section 5.3). -/
def Capture.bufferState (c : Capture) (id : BufferId) : BufferState :=
  if c.fill.any (·.buffer == id) then .filling
  else if c.queue.any (·.buffer == id) then .closed
  else .free

/-- A FREE staging buffer, if there is one (R96: if both are FREE, either may be taken; the choice is not visible). -/
def Capture.freeBuffer (c : Capture) : Option BufferId :=
  if c.bufferState .a = .free then some .a
  else if c.bufferState .b = .free then some .b
  else none

/-- The frame in progress is one the synchronizer is handing (R17). -/
def Synchronizer.framing (s : Synchronizer) : Bool :=
  match s.state with
  | .lock | .flywheel => true
  | .off | .search | .check => false

/-! ## Time -/

/-- 100 ns ticks in a number of microseconds (R200). -/
def ticksOfUs (us : Nat) : Nat := us * 10

/-- 100 ns ticks in a number of milliseconds. -/
def ticksOfMs (ms : Nat) : Nat := ms * 10000

/-! ## Image of system memory (R174) -/

/-- The canonical form: addresses strictly rising. (An unlisted address reads as none, and every entry is a byte, so no entry
equals what an unlisted address reads as.) -/
def Memory.wf : List Host.Cell → Bool
  | a :: b :: rest => a.1 < b.1 && Memory.wf (b :: rest)
  | _ => true

/-- The byte the FS8 has placed at an address, none where it has placed none. -/
def Memory.read : List Host.Cell → Nat → Option Byte
  | [], _ => none
  | (a, v) :: rest, address => if a = address then some v else Memory.read rest address

/-- Places one byte. -/
def Memory.write : List Host.Cell → Nat → Byte → List Host.Cell
  | [], address, v => [(address, v)]
  | (a, w) :: rest, address, v =>
    if address < a then (address, v) :: (a, w) :: rest
    else if address = a then (address, v) :: rest
    else (a, w) :: Memory.write rest address v

/-- The address that the 48-bit bus carries for an exact address (R114, R208; past 2^48 the spec is silent: log 12). -/
def busAddress (address : Nat) : Nat :=
  if address < 2 ^ 48 then address else (Config.overflowAddress address).toNat

/-- Places bytes at ascending addresses (R174). -/
def Memory.writeAll (m : List Host.Cell) : (address : Nat) → List Byte → List Host.Cell
  | _, [] => m
  | address, v :: rest => Memory.writeAll (Memory.write m (busAddress address) v) (address + 1) rest

/-- The free bytes that a counter draws. -/
def freeBytes (start : Nat) : (count : Nat) → List Byte
  | 0 => []
  | count + 1 => Config.freeByte start :: freeBytes (start + 1) count

/-- The bytes of a write that completed with OKAY are in memory (R174). -/
def State.placeBytes (s : State) (t : Transaction) : State :=
  { s with mem := Memory.writeAll s.mem t.address t.data }

/-- The bytes of a write that failed, timed out or was abandoned may have reached memory in part, in any mixture (R174):
each byte of it is free from here on, until a later write of the FS8 places it. -/
def State.spoilBytes (s : State) (t : Transaction) : State :=
  { s with
    mem := Memory.writeAll s.mem t.address (freeBytes s.freeCount t.data.length)
    freeCount := s.freeCount + t.data.length }

/-- The bytes of the transaction in flight, when it is abandoned. -/
def State.spoilInFlight (s : State) : State :=
  match s.port.inFlight with
  | none => s
  | some t => s.spoilBytes t

/-! ## The register window (R195, R196) -/

/-- The Control Page base that CPBASE_HI and CPBASE_LO name. -/
def Registers.cpbase (r : Registers) : Nat := r.cpbaseHi.toNat * 2 ^ 32 + r.cpbaseLo.toNat

/-- The RUNNING mask of STATE: bit n for channel n (R196). -/
def State.runningMask (s : State) : Nat :=
  (allChans.map fun ch => if (s.chan ch).prog.runState = .running then 2 ^ chanNumber ch else 0).sum

/-- What a read of a register returns (R195, R196). A read changes nothing. While RSTN is low it returns the full-reset
value (R202), which is what the registers then hold. -/
def State.readRegister (s : State) : Register → Word
  | .id => 0x1C4A0F81
  | .ctrl => BitVec.ofNat 32 ((if s.regs.run then 1 else 0) + (if s.regs.irqen then 4 else 0))
  | .state => BitVec.ofNat 32 (deviceCode s.device + 16 * faultCodeNumber s.faultCode + 256 * s.runningMask)
  | .cpbaseLo => s.regs.cpbaseLo
  | .cpbaseHi => s.regs.cpbaseHi
  | .nudge => 0
  | .irqPend => s.regs.irqPend.zeroExtend 32
  | .irqMask => s.regs.irqMask.zeroExtend 32

/-- What a read of `width` bytes from an offset returns: the addressed bytes of the registers, as R196 has them for a read of any
width. That the least significant byte of a register lies at its lowest offset is the model's choice (log 23): the spec orders the
bytes of memory structures and of master transactions only. Beyond the window there is nothing to return. -/
def State.readBytes (s : State) (offset width : Nat) : List Byte :=
  (List.range width).filterMap fun i =>
    (registerAt (offset + i)).map fun r => byteAt (bytesOf 4 (s.readRegister r).toNat) ((offset + i) % 4)

/-- The IRQ_N pin is driven low (R199). -/
def State.irqLow (s : State) : Bool := s.regs.irqLow

/-- Sets a pending bit (R198). -/
def State.raise (s : State) (source : IrqSource) : State :=
  { s with regs := { s.regs with irqPend := setPending s.regs.irqPend source } }

end Sys2Proof.Machine
end

