-- ==== Sys2Proof/Machine/Formats.lean ====
section
/-! DEFINITION. The bytes the FS8 writes: capture records (R206, R207), event records (12.5), and the words of the Control
Page (12.1, 12.2). -/

namespace Sys2Proof.Machine

/-! ## Windows and their payload (R102, R104) -/

/-- One byte of up to eight bits, the first in the most significant position; missing bits are zero (R102). -/
def packByte (bits : List Bool) : Byte :=
  BitVec.ofNat 8 ((List.range 8).foldl (fun n i => 2 * n + (bits.getD i false).toNat) 0)

/-- The bytes of a window: its bits in the order received, eight to a byte (R102). -/
def packBits : List Bool → List Byte
  | a :: b :: c :: d :: e :: f :: g :: h :: rest => packByte [a, b, c, d, e, f, g, h] :: packBits rest
  | [] => []
  | short => [packByte short]

/-- One shift of the CRC register (R104). -/
def crcShift (c : Word) : Word := if c.getLsbD 0 then (c >>> 1) ^^^ 0xEDB88320 else c >>> 1

/-- A byte taken into the CRC register, least significant bit first (R104). -/
def crcByte (c : Word) (b : Byte) : Word :=
  (List.range 8).foldl (fun c _ => crcShift c) (c ^^^ b.zeroExtend 32)

/-- Bytes taken into the CRC register in order. -/
def crcBytes (c : Word) (bytes : List Byte) : Word := bytes.foldl crcByte c

/-- The CRC register at the start of a record (R104). -/
def crcStart : Word := 0xFFFFFFFF

/-! ## Capture records -/

/-- A length rounded up to a multiple of 8 (R106). -/
def roundUp8 (n : Nat) : Nat := (n + 7) / 8 * 8

/-- The FRAME flags (R206). -/
def frameFlags (truncated : Bool) (f : Frame) : Nat :=
  truncated.toNat + 2 * f.flywheel.toNat + 4 * f.slippedEarly.toNat + 8 * f.slippedLate.toNat + 16 * f.inverted.toNat

/-- R106: the bytes of a FRAME record closed with the windows complete so far. -/
def Fill.record (ch : Chan) (truncated : Bool) (f : Fill) : List Byte :=
  let length := f.payload.length
  let total := roundUp8 (32 + length)
  [1, BitVec.ofNat 8 (frameFlags truncated f.frame)] ++ bytesOf 2 total
    ++ [f.runIndex, BitVec.ofNat 8 (2 ^ f.cursor - 1), BitVec.ofNat 8 f.frame.distance, BitVec.ofNat 8 (chanNumber ch)]
    ++ bytesOf 4 f.frame.number.toNat ++ bytesOf 4 f.plan.generation.toNat
    ++ bytesOf 8 f.frame.timestamp.toNat ++ bytesOf 4 length ++ bytesOf 4 (~~~f.crc).toNat
    ++ f.payload ++ List.replicate (total - (32 + length)) 0

/-- R126, R206: the bytes of a GAP record. -/
def DropSpell.record (ch : Chan) (runIndex : Byte) (d : DropSpell) : List Byte :=
  [2, BitVec.ofNat 8 (d.noroom.toNat + 2 * d.stall.toNat)] ++ bytesOf 2 32
    ++ [runIndex, 0, 0, BitVec.ofNat 8 (chanNumber ch)]
    ++ bytesOf 4 d.first.toNat ++ bytesOf 4 d.last.toNat ++ bytesOf 8 d.timestamp.toNat
    ++ bytesOf 4 d.count.toNat ++ bytesOf 4 0

/-- R207: the leading bytes of a PAD that are written, at most 8 and none beyond the PAD. -/
def padBytes (length : Nat) : List Byte := ([3, 0] ++ bytesOf 2 length ++ bytesOf 4 0).take length

/-! ## Event records (R150, 12.5) -/

/-- The type value of an event, its code and its three details (R150). -/
def EventBody.fields : EventBody → Nat × Nat × Nat × Nat × Nat
  | .lockAcquired inverted frame => (1, inversionCode inverted, frame.toNat, 0, 0)
  | .lockLost reason lastFrame => (2, lossCode reason, lastFrame.toNat, 0, 0)
  | .activity state => (3, activityCode state, 0, 0, 0)
  | .polarityFlip inverted => (4, inversionCode inverted, 0, 0, 0)
  | .programAdopted change generation => (5, changeCode change, generation.toNat, 0, 0)
  | .programRejected reason generation => (6, rejectCode reason, generation.toNat, 0, 0)
  | .programTorn generation => (7, 0, generation.toNat, 0, 0)
  | .programSuperseded replaced new => (8, 0, replaced.toNat, new.toNat, 0)
  | .channelState state runIndex cause => (9, runStateCode state, runIndex.toNat, causeCode cause, 0)
  | .captureDrops reason firstFrame runIndex => (10, dropReasonCode reason, firstFrame.toNat, runIndex.toNat, 0)
  | .captureFault address => (11, 0, 0, 0, address.toNat)
  | .badRelease refused writeMark => (12, 0, refused.toNat, writeMark.toNat, 0)
  | .statsFault request => (13, 0, request.toNat, 0, 0)
  | .startEdge => (14, 0, 0, 0, 0)
  | .testSource outcome generation reason =>
    (15, testOutcomeCode outcome, generation.toNat, testRejectCode reason, 0)
  | .deviceState state => (16, deviceCode state, 0, 0, 0)
  | .journalOverflow dropped => (17, 0, dropped.toNat, 0, 0)

/-- The channel byte of an event: 0xFF for the device (R136). -/
def Event.channelCode (e : Event) : Nat := (e.channel.map chanNumber).getD 0xFF

/-- The 32 bytes of an event record. -/
def JournalRecord.bytes (r : JournalRecord) : List Byte :=
  let (type, code, a, b, c) := r.event.body.fields
  bytesOf 4 r.sequence.toNat ++ bytesOf 1 type ++ bytesOf 1 r.event.channelCode ++ bytesOf 2 code
    ++ bytesOf 8 r.event.timestamp.toNat ++ bytesOf 4 a ++ bytesOf 4 b ++ bytesOf 8 c

/-! ## Words of the Control Page -/

/-- The generation write (R90): adopted_generation, rejected_generation, reject_reason. -/
def ProgramUnit.generationWords (p : ProgramUnit) : List Byte :=
  bytesOf 4 p.adopted.toNat ++ bytesOf 4 p.rejected.toNat ++ bytesOf 2 (rejectCode p.rejectReason)

/-- The slot status write (R30): run_state, sync_state, activity_state, run_index, inversion. Every status write made while
the channel is not RUNNING writes OFF as its sync_state. -/
def Channel.statusWords (c : Channel) : List Byte :=
  let sync := if c.prog.runState = .running then c.sync.state else .off
  bytesOf 1 (runStateCode c.prog.runState) ++ bytesOf 1 (syncStateCode sync)
    ++ bytesOf 1 (activityCode c.monitor.state) ++ [c.prog.runIndex] ++ bytesOf 1 (inversionCode c.sync.inverted)

/-- The mark write (R128): write_mark, accepted_release_mark. -/
def Writeback.markWords (w : Writeback) : List Byte :=
  bytesOf 4 w.writeMark.toNat ++ bytesOf 4 w.acceptedRelease.toNat

/-- The journal mark write (R145). -/
def EventUnit.markWords (e : EventUnit) : List Byte :=
  bytesOf 4 e.writeMark.toNat ++ bytesOf 4 e.acceptedRelease.toNat ++ bytesOf 4 e.droppedTotal.toNat
    ++ bytesOf 4 e.badReleases.toNat

/-- The statistics block of a snapshot (R155): its time, bytes_written, then the fifteen counters in the order of 08 section
8.1. -/
def Snapshot.blockWords (n : Snapshot) : List Byte :=
  let c := n.counters
  bytesOf 8 n.time.toNat ++ bytesOf 8 c.bytesWritten.toNat
    ++ [c.framesLocked, c.framesCaptured, c.flywheelFrames, c.syncBitErrors, c.losses, c.slips, c.polarityFlips,
        c.dropsNoroom, c.dropsStall, c.truncatedRecords, c.tornReads, c.quietEntries, c.noclockEntries,
        c.badReleases, c.recordsWritten].flatMap fun w => bytesOf 4 w.toNat

/-- The test status write (R167): the two generations, test_reject_reason, test_state. -/
def TestSource.statusWords (t : TestSource) : List Byte :=
  bytesOf 4 t.adopted.toNat ++ bytesOf 4 t.rejected.toNat ++ bytesOf 2 (testRejectCode t.rejectReason)
    ++ bytesOf 1 (if t.state = .running then 1 else 0)

end Sys2Proof.Machine
end

