-- ==== Sys2Proof/Machine/Port.lean ====
section
/-! DEFINITION. The Memory Port Arbiter (10): requests, the grant rule, and the transaction that a granted request issues. -/

namespace Sys2Proof.Machine

/-! ## Classes (R175) -/

/-- The class of a request (R175). -/
def Request.classOf : Request → RequestClass
  | .mirrorWrite | .generationWrite _ | .statusWrite _ | .markWrite _ | .journalRecord | .journalMark
  | .blockWrite _ | .servedWrite _ | .testStatus => .a
  | .headerRead | .slotRead _ | .fetchFixed _ | .fetchTail _ | .reRead _ | .journalReRead | .testSample
  | .blockFetch => .b
  | .recordBurst _ => .c

/-- A request is a write: classes A and C are, class B is not (10 section 10.1). -/
def Request.isWrite (r : Request) : Bool := r.classOf != .b

/-! ## The transaction of a request (10 section 10.1, R203) -/

/-- The address of a slot: the session base plus 256 + 256 n (R203). -/
def State.slotAddress (s : State) (ch : Chan) : Nat := s.sessionBase + 256 + 256 * chanNumber ch

/-- The burst that is waiting or in flight (R123). -/
def Placement.burst : Placement → Burst
  | .writing _ (b :: _) => b
  | _ => ⟨0, []⟩

/-- The part of the record being written that the current journal record write carries (R143): the bytes before the end of the
area, or the rest of them at its start. -/
def State.journalPart (s : State) : Burst :=
  match s.events.placement with
  | .writing r =>
    let before := s.params.journalSize.toNat - r.offset
    if r.secondPart then ⟨s.params.journalBase.toNat, r.bytes.drop before⟩
    else ⟨s.params.journalBase.toNat + r.offset, r.bytes.take before⟩
  | _ => ⟨0, []⟩

/-- The pointer of the channel's fetch in flight. -/
def ProgramUnit.fetchPointer (p : ProgramUnit) : Nat := (p.fetch.map fun f => f.pointer.toNat).getD 0

/-- The offset and length of the second read of the channel's fetch (R77). -/
def ProgramUnit.fetchSecond (p : ProgramUnit) : Nat × Nat :=
  secondRead ((p.fetch.bind (·.fixedPart)).getD [])

/-- A read transaction. -/
def readOf (r : Request) (address length : Nat) : Transaction := ⟨r, address, length, [], false⟩

/-- A write transaction. -/
def writeOf (r : Request) (address : Nat) (data : List Byte) : Transaction := ⟨r, address, data.length, data, false⟩

/-- The transaction a request issues. The values of a write are those current now, when it is issued (R176). Addresses are kept
exact here, that of a program read which reaches 2^48 too (log 12). -/
def State.transaction (s : State) (r : Request) : Transaction :=
  match r with
  | .headerRead => readOf r s.sessionBase 256
  | .mirrorWrite => writeOf r (s.sessionBase + 91) (bytesOf 1 (deviceCode s.device))
  | .slotRead ch => readOf r (s.slotAddress ch) 32
  | .fetchFixed ch => readOf r (s.chan ch).prog.fetchPointer 48
  | .fetchTail ch =>
    readOf r ((s.chan ch).prog.fetchPointer + (s.chan ch).prog.fetchSecond.1) (s.chan ch).prog.fetchSecond.2
  | .generationWrite ch => writeOf r (s.slotAddress ch + 64) (s.chan ch).prog.generationWords
  | .statusWrite ch => writeOf r (s.slotAddress ch + 74) (s.chan ch).statusWords
  | .reRead ch => readOf r (s.slotAddress ch + 24) 4
  | .recordBurst ch => writeOf r (s.chan ch).wb.placement.burst.address (s.chan ch).wb.placement.burst.bytes
  | .markWrite ch => writeOf r (s.slotAddress ch + 80) (s.chan ch).wb.markWords
  | .journalRecord => writeOf r s.journalPart.address s.journalPart.bytes
  | .journalReRead => readOf r (s.sessionBase + 28) 4
  | .journalMark => writeOf r (s.sessionBase + 64) s.events.markWords
  | .blockWrite ch =>
    writeOf r (s.slotAddress ch + 128) (((s.chan ch).stats.latch.map Snapshot.blockWords).getD [])
  | .servedWrite ch => writeOf r (s.slotAddress ch + 88) (bytesOf 2 (s.chan ch).stats.served.toNat)
  | .testSample => readOf r (s.sessionBase + 32) 12
  | .blockFetch => readOf r ((s.test.fetch.map fun f => f.pointer.toNat).getD 0) 40
  | .testStatus => writeOf r (s.sessionBase + 80) s.test.statusWords

/-! ## Requests (R176) -/

/-- The request stands in its class's queue or in its channel's place (R176). -/
def Port.queued (p : Port) (r : Request) : Bool :=
  match r with
  | .recordBurst ch => p.classC.get ch
  | _ => p.classA.contains r || p.classB.contains r

/-- The request waits for the port: it is queued, or the command under way has made it. -/
def Port.waiting (p : Port) (r : Request) : Bool := p.queued r || p.arrivals.any fun t => t.request == r

/-- The request is in flight, and its requester expects its result (R184). -/
def Port.flying (p : Port) (r : Request) : Bool :=
  p.inFlight.any fun t => t.request == r && !t.orphan

/-- The request waits or is in flight. -/
def Port.outstanding (p : Port) (r : Request) : Bool := p.waiting r || p.flying r

/-- A request joins the arbiter (R176): the tail of its class's queue, or its channel's place. -/
def Port.join (p : Port) (r : Request) : Port :=
  match r with
  | .recordBurst ch => { p with classC := p.classC.set ch true }
  | _ => if r.classOf = .a then { p with classA := p.classA ++ [r] } else { p with classB := p.classB ++ [r] }

/-- A request that arrives at the arbiter. One made while one like it waits is not queued again; one made while one like it is in
flight is queued once behind it (R30, R90, R128, R145, R167, R176, R194). -/
def Port.enlist (p : Port) (r : Request) : Port := if p.queued r then p else p.join r

/-- A block makes a request (R176). -/
def State.request (s : State) (r : Request) : State :=
  { s with port := { s.port with arrivals := s.port.arrivals ++ [s.transaction r] } }

/-- A read of which at most one is outstanding: a request that finds one is skipped (R74, R117, R138, R161). -/
def State.requestRead (s : State) (r : Request) : State := if s.port.outstanding r then s else s.request r

/-! ## What a block has outstanding

Outside FAULTED this is what the port holds of the block. In FAULTED the port holds nothing (R184), and each block stays in the
condition it held at the entry (R70, R135, R152, R160; log 34). -/

/-- A request of the block waits for the port, or waited when FAULTED froze the block. -/
def State.waits (s : State) (r : Request) : Bool := s.port.waiting r || s.frozen.waiting.contains r

/-- A request of the block is in flight, or was when FAULTED froze the block. -/
def State.flies (s : State) (r : Request) : Bool := s.port.flying r || s.frozen.inFlight == some r

/-- Whether a read is outstanding (R74, R117, R138, R161). -/
def State.outstanding (s : State) (r : Request) : Bool := s.waits r || s.flies r

/-- Where a coalescing write stands. -/
def State.writeStatus (s : State) (r : Request) : WriteStatus :=
  if s.flies r then (if s.waits r then .inFlightWithOneWaiting else .inFlight)
  else if s.waits r then .waiting else .none

/-- Where the delivery of a channel's snapshot stands (08 section 8.1). -/
def State.snapshotWrite (s : State) (ch : Chan) : SnapshotWrite :=
  if s.flies (.blockWrite ch) then .blockInFlight
  else if s.waits (.blockWrite ch) then .blockWaiting
  else if s.flies (.servedWrite ch) then .servedInFlight
  else if s.waits (.servedWrite ch) then .servedWaiting
  else .none

/-- R113: the requests that go with the groups which FAULTED discards: the bursts of a Writeback Unit and its re-read. Every other
block keeps what it has outstanding (log 34). -/
def Request.ofPlacement : Request → Bool
  | .recordBurst _ | .reRead _ => true
  | _ => false

/-- What the blocks have outstanding at an entry to FAULTED and keep there. -/
def Port.toFreeze (p : Port) : FrozenRequests where
  waiting := (p.classA ++ p.classB ++ p.arrivals.map (·.request)).filter fun r => !r.ofPlacement
  inFlight := (p.inFlight.filter fun t => !t.orphan && !t.request.ofPlacement).map (·.request)

/-! ## The grant rule (R177 to R179) -/

/-- At least one class C request is waiting. -/
def Port.anyClassC (p : Port) : Bool := allChans.any p.classC.get

/-- The channels in the examination order of R178: from the one given, wrapping from CH7 to CH0. -/
def chansFrom (ch : Chan) : List Chan := allChans.drop (chanNumber ch) ++ allChans.take (chanNumber ch)

/-- R178: the channel a class C grant goes to. -/
def Port.classCChoice (p : Port) : Option Chan := (chansFrom p.roundRobin).find? p.classC.get

/-- R177: the request a grant goes to, if any is waiting. -/
def Port.choice (p : Port) : Option Request :=
  let c := p.classCChoice.map Request.recordBurst
  if p.guard = 8 ∧ p.anyClassC then c
  else match p.classA, p.classB with
    | r :: _, _ => some r
    | [], r :: _ => some r
    | [], [] => c

/-- R179: the guard count after a grant to class A or B. -/
def Port.guardAfter (p : Port) : Nat := if p.anyClassC then min 8 (p.guard + 1) else 0

/-- The granted request leaves its queue or its place; the guard count and the round-robin pointer follow. -/
def Port.depart (p : Port) (r : Request) : Port :=
  match r with
  | .recordBurst ch => { p with classC := p.classC.set ch false, guard := 0, roundRobin := chanAfter ch }
  | _ => if r.classOf = .a then { p with classA := p.classA.erase r, guard := p.guardAfter }
    else { p with classB := p.classB.erase r, guard := p.guardAfter }

/-! ## Arrivals and grants (R177, R180) -/

/-- R177, R180: when no transaction is in flight and a request is waiting, one is granted, issued, and timed; `issue` gives the
transaction of the request granted. -/
def State.grantAs (s : State) (issue : Request → Transaction) : State :=
  match s.port.inFlight, s.port.choice with
  | none, some r => { s with port := { s.port.depart r with inFlight := some (issue r), timer := some 0 } }
  | _, _ => s

/-- R177: a grant of what waits, with the values current now. -/
def State.grant (s : State) : State := s.grantAs s.transaction

/-- The transaction of a request, the one kept when the request is the one it was kept for. -/
def State.keptTransaction (s : State) (t : Transaction) (r : Request) : Transaction :=
  if r = t.request then t else s.transaction r

/-- R176, R177: a request arrives at the arbiter; one that finds the port idle is granted at once, with the values of the moment
at which it was made. -/
def State.arrive (s : State) (t : Transaction) : State :=
  ({ s with port := s.port.enlist t.request } : State).grantAs (s.keptTransaction t)

/-- R177: the requests that a command has made arrive, in the order in which it made them (log 4). The port is idle after it
only if nothing waits. -/
def State.arbitrate (s : State) : State :=
  (s.port.arrivals.foldl State.arrive { s with port := { s.port with arrivals := [] } }).grant

/-- R176: the requests made at a completion join the arbiter, in the order in which they were made. -/
def Port.enlistArrivals (p : Port) : Port :=
  p.arrivals.foldl (fun q t => q.enlist t.request) { p with arrivals := [] }

/-- R177: the grant at a completion; the requests made at the completion take part in it (log 4). -/
def State.regrant (s : State) : State := ({ s with port := s.port.enlistArrivals } : State).grant

end Sys2Proof.Machine
end

