-- ==== Sys2Proof/Machine/Journal.lean ====
section
/-! DEFINITION. The Event Unit (07): taking events, placing records in the journal, and its marks and notices. -/

namespace Sys2Proof.Machine

/-- Changes the Event Unit. -/
def State.modEvents (s : State) (f : EventUnit → EventUnit) : State := { s with events := f s.events }

/-- R136, R149: the device states in which the Event Unit takes events. -/
def DeviceState.takesEvents : DeviceState → Bool
  | .running | .draining | .stopped => true
  | .dormant | .starting | .faulted => false

/-- The room of the journal (R137). -/
def State.journalRoom (s : State) : Nat :=
  roomOf s.params.journalSize.toNat s.events.writeMark s.events.acceptedRelease

/-! ## Placement -/

/-- R142: the event of the next record and whether it is the head of the queue; none when there is nothing to write. -/
def EventUnit.nextEvent (e : EventUnit) (now : Dword) : Option (Event × Bool) :=
  if e.droppedCount = 0 then e.queue.head?.map fun event => (event, true)
  else some (⟨none, .journalOverflow e.droppedCount, now⟩, false)

/-- R142, R143: a placement goes to WRITING: the record is fixed and its write requested. -/
def State.journalWrite (s : State) : State :=
  match s.events.nextEvent s.timebase with
  | none => s
  | some (event, fromQueue) =>
    (s.modEvents fun e =>
      { e with
        droppedCount := 0
        placement := .writing
          { event := event
            sequence := e.sequence
            offset := e.writeMark.toNat % s.params.journalSize.toNat
            fromQueue := fromQueue
            secondPart := false } }).request .journalRecord

/-- There is something to write (R140). -/
def EventUnit.hasWork (e : EventUnit) : Bool := e.queue ≠ [] || e.droppedCount ≠ 0

/-- R140: begins a placement when none is under way and there is something to write. -/
def State.journalNext (s : State) : State :=
  if s.events.placement = .idle ∧ s.events.hasWork = true then
    if 32 ≤ s.journalRoom then s.journalWrite
    else (s.modEvents fun e => { e with placement := .reread }).requestRead .journalReRead
  else s

/-! ## Events handed over -/

/-- R136: the event joins the queue, or is dropped and counted. -/
def State.enqueue (s : State) (event : Event) : State :=
  if s.events.queue.length < 16 then s.modEvents fun e => { e with queue := e.queue ++ [event] }
  else
    (s.modEvents fun e =>
      { e with droppedCount := saturate e.droppedCount 1, droppedTotal := saturate e.droppedTotal 1 }).request
      .journalMark

/-- R138, R141: an event handed while the placement is BLOCKED requests a journal re-read. -/
def State.journalNudged (s : State) : State :=
  if s.events.placement = .blocked then s.requestRead .journalReRead else s

/-- R136: a block hands an event to the Event Unit, stamped with the timebase. -/
def State.hand (s : State) (channel : Option Chan) (body : EventBody) : State :=
  if s.device.takesEvents then ((s.enqueue ⟨channel, body, s.timebase⟩).journalNudged).journalNext else s

/-! ## Release marks (R139) -/

/-- R139: a value from a journal re-read is offered. -/
def State.offerJournalRelease (s : State) (value : Word) : State :=
  if releaseAcceptable value s.events.acceptedRelease s.events.writeMark then
    let t := s.modEvents fun e => { e with acceptedRelease := value, lastBad := none }
    if value = s.events.acceptedRelease then t else t.request .journalMark
  else if s.events.lastBad = some value then s
  else
    (s.modEvents fun e =>
      { e with badReleases := saturate e.badReleases 1, lastBad := some value }).request .journalMark

/-- R140, R141: a placement in REREAD or BLOCKED compares the room again. -/
def State.journalRecheck (s : State) : State :=
  if s.events.placement = .reread ∨ s.events.placement = .blocked then
    if 32 ≤ s.journalRoom then s.journalWrite else s.modEvents fun e => { e with placement := .blocked }
  else s

/-- R138: the journal re-read completes, with a value (OKAY) or without (ERROR). -/
def State.journalReReadDone (s : State) (value : Option Word) : State :=
  (match value with
    | some v => s.offerJournalRelease v
    | none => s).journalRecheck

/-! ## Record and mark writes -/

/-- R143: a record that is complete: the mark and the sequence number advance, the event leaves the queue, a journal mark
write is requested and the next placement begins. -/
def State.journalAdvance (s : State) (r : JournalRecord) : State :=
  ((s.modEvents fun e =>
    { e with
      writeMark := e.writeMark + 32
      sequence := e.sequence + 1
      queue := if r.fromQueue then e.queue.tail else e.queue
      placement := .idle }).request .journalMark).journalNext

/-- R137, R143: the record reaches past the end of the journal, so that it is written in two parts. -/
def State.journalSplit (s : State) (r : JournalRecord) : Bool := s.params.journalSize.toNat < r.offset + 32

/-- R143: a write of the record's bytes completes with OKAY. -/
def State.journalRecordDone (s : State) : State :=
  match s.events.placement with
  | .writing r =>
    if s.journalSplit r ∧ r.secondPart = false then
      (s.modEvents fun e => { e with placement := .writing { r with secondPart := true } }).request .journalRecord
    else s.journalAdvance r
  | _ => s

/-- A holdoff timer: it starts if it is stopped and holdoff_us is not 0 (R130, R147). -/
def startHoldoff (holdoff : Option Nat) (holdoffUs : Word) : Option Nat :=
  match holdoff with
  | some n => some n
  | none => if holdoffUs = 0 then none else some 0

/-- R146, R147: the JOURNAL notice. -/
def State.journalNotice (s : State) : State :=
  (s.modEvents fun e => { e with noticed := e.published, holdoff := none }).raise .journal

/-- R145 to R147: a journal mark write that carried a write mark completes with OKAY. -/
def State.journalMarkDone (s : State) (carried : Word) : State :=
  let t := s.modEvents fun e => { e with published := carried }
  if carried = s.events.noticed then t
  else if t.params.journalThreshold.toNat ≤ (carried - s.events.noticed).toNat / 32 then t.journalNotice
  else t.modEvents fun e => { e with holdoff := startHoldoff e.holdoff t.params.holdoffUs }

end Sys2Proof.Machine
end

