-- ==== Sys2Proof/Machine/Writeback.lean ====
section
/-! DEFINITION. The Writeback Units (06): placing groups, drop spells, release marks and capture notices. -/

namespace Sys2Proof.Machine

/-- The room of a channel's capture area (R114), 0 when it has none. -/
def State.areaRoom (s : State) (ch : Chan) : Nat :=
  match (s.chan ch).prog.area with
  | none => 0
  | some area => roomOf area.size (s.chan ch).wb.writeMark (s.chan ch).wb.acceptedRelease

/-! ## Groups (R120) -/

/-- The bytes a group needs: its PAD and the rest. -/
def Group.needed (g : Group) : Nat := g.pad + g.size

/-- R120: the group of `size` bytes that starts at the write mark, or at offset 0 after a PAD. -/
def buildGroup (area : Area) (writeMark : Word) (alone gap : Bool) (size : Nat) : Group :=
  let offset := writeMark.toNat % area.size
  { alone := alone
    gap := gap
    pad := if offset + size ≤ area.size then 0 else area.size - offset
    offset := offset
    size := size }

/-- R120, R127: the group to place next, none when there is nothing to place: the record at the head of the queue behind a
GAP if the spell is open, or, for a HALTED channel with an empty queue and an open spell, a GAP alone. -/
def Channel.nextGroup (c : Channel) : Option Group :=
  match c.prog.area, c.capture.queue, c.wb.spell with
  | none, _, _ => none
  | some area, r :: _, spell =>
    some (buildGroup area c.wb.writeMark false spell.isSome ((if spell.isSome then 32 else 0) + r.bytes.length))
  | some area, [], some _ =>
    if c.prog.runState = .halted then some (buildGroup area c.wb.writeMark true true 32) else none
  | some _, [], none => none

/-- Bytes laid end to end from an address, in bursts of 256 bytes (R123). -/
def bodyBursts : (count address : Nat) → List Byte → List Burst
  | 0, _, _ => []
  | count + 1, address, bytes => ⟨address, bytes.take 256⟩ :: bodyBursts count (address + 256) (bytes.drop 256)

/-- R123: the bytes of a group after its PAD: the GAP, if it holds one, and the record. -/
def Channel.groupBytes (c : Channel) (ch : Chan) (g : Group) : List Byte :=
  (if g.gap then (c.wb.spell.map (DropSpell.record ch c.prog.runIndex)).getD [] else [])
    ++ (if g.alone then [] else (c.capture.queue.head?.map (·.bytes)).getD [])

/-- R123: the bursts of a group. -/
def Channel.groupBursts (c : Channel) (ch : Chan) (g : Group) : List Burst :=
  let base := (c.prog.area.map (·.base)).getD 0
  let bytes := c.groupBytes ch g
  (if g.pad = 0 then [] else [⟨base + g.offset, padBytes g.pad⟩])
    ++ bodyBursts ((bytes.length + 255) / 256) (base + (if g.pad = 0 then g.offset else 0)) bytes

/-- R123: a group that has found room is placed: its contents are fixed, a GAP closes the spell, and the first burst is
requested. -/
def State.placeGroup (s : State) (ch : Chan) (g : Group) : State :=
  (s.modWb ch fun w =>
    { w with
      placement := .writing g ((s.chan ch).groupBursts ch g)
      spell := if g.gap then none else w.spell }).request (.recordBurst ch)

/-- R120, R121, R127: when no group is being placed, the next one is taken up: placed at once if there is room, and otherwise
left to wait for a re-read. -/
def State.writebackNext (s : State) (ch : Chan) : State :=
  match (s.chan ch).wb.placement, (s.chan ch).nextGroup with
  | .idle, some g =>
    if g.needed ≤ s.areaRoom ch then s.placeGroup ch g
    else (s.modWb ch fun w => { w with placement := .reread g }).requestRead (.reRead ch)
  | _, _ => s

/-! ## Drops (R119, R122, R125) -/

/-- One drop, as a tally. -/
def oneDrop (frame : Word) (timestamp : Dword) : Tally := ⟨frame, frame, 1, timestamp⟩

/-- A tally with one more drop (R119). -/
def Tally.add (t : Tally) (frame : Word) : Tally := { t with last := frame, count := saturate t.count 1 }

/-- R119: a STALL drop notice is added to the tally of the record at the tail of the queue. -/
def holdTally (frame : Word) (timestamp : Dword) : List ClosedRecord → List ClosedRecord
  | [] => []
  | [r] => [{ r with tally := some ((r.tally.map (Tally.add · frame)).getD (oneDrop frame timestamp)) }]
  | r :: rest => r :: holdTally frame timestamp rest

/-- The spell a drop or tally opens (R125). -/
def Tally.open (t : Tally) (reason : DropReason) : DropSpell :=
  ⟨t.first, t.last, t.count, reason = .noroom, reason = .stall, t.timestamp⟩

/-- The spell with a drop or tally taken in (R125). -/
def DropSpell.extend (d : DropSpell) (reason : DropReason) (t : Tally) : DropSpell :=
  { d with
    last := t.last
    count := saturate d.count t.count.toNat
    noroom := d.noroom || reason = .noroom
    stall := d.stall || reason = .stall }

/-- R125: a drop or a tally is taken into the spell; one that opens it produces CAPTURE_DROPS. -/
def State.takeIntoSpell (s : State) (ch : Chan) (reason : DropReason) (t : Tally) : State :=
  match (s.chan ch).wb.spell with
  | none =>
    (s.modWb ch fun w => { w with spell := some (t.open reason) }).hand (some ch)
      (.captureDrops reason t.first (s.chan ch).prog.runIndex)
  | some d => s.modWb ch fun w => { w with spell := some (d.extend reason t) }

/-- R119, R124: the tally a record held is taken into the spell. -/
def State.takeTally (s : State) (ch : Chan) (tally : Option Tally) : State :=
  match tally with
  | none => s
  | some t => s.takeIntoSpell ch .stall t

/-- The record at the head of the queue leaves it and its buffer becomes FREE (R98). -/
def State.releaseHead (s : State) (ch : Chan) : State :=
  s.modCapture ch fun c => { c with queue := c.queue.tail }

/-- The placement returns to none. -/
def State.endPlacement (s : State) (ch : Chan) : State := s.modWb ch fun w => { w with placement := .idle }

/-- R122: the record at the head of the queue is a NOROOM drop. -/
def State.noroomDrop (s : State) (ch : Chan) : State :=
  match (s.chan ch).capture.queue with
  | [] => s.endPlacement ch
  | r :: _ =>
    ((((s.releaseHead ch).endPlacement ch).count ch fun c => { c with dropsNoroom := saturate c.dropsNoroom 1
        }).takeIntoSpell ch .noroom (oneDrop r.frameNumber r.timestamp)).takeTally ch r.tally

/-- R122, R127: a group that still finds too little room after its re-read: the spell of a GAP alone is discarded, a record is
dropped. -/
def State.noRoom (s : State) (ch : Chan) (g : Group) : State :=
  if g.alone then (s.endPlacement ch).modWb ch fun w => { w with spell := none }
  else (s.noroomDrop ch).writebackNext ch

/-! ## Release marks (R116 to R118) -/

/-- R116, R118: a release value is offered, if the channel has a capture area in force. -/
def State.offerRelease (s : State) (ch : Chan) (value : Word) : State :=
  let w := (s.chan ch).wb
  if (s.chan ch).prog.area = none then s
  else if releaseAcceptable value w.acceptedRelease w.writeMark then
    let t := s.modWb ch fun w => { w with acceptedRelease := value, lastBad := none }
    if value = w.acceptedRelease then t else t.request (.markWrite ch)
  else if w.lastBad = some value then s
  else
    (((s.modWb ch fun w => { w with lastBad := some value }).count ch fun c =>
      { c with badReleases := saturate c.badReleases 1 })).hand (some ch) (.badRelease value w.writeMark)

/-- R121: the group that waits for the re-read compares the room again. -/
def State.recheckGroup (s : State) (ch : Chan) : State :=
  match (s.chan ch).wb.placement with
  | .reread g => if g.needed ≤ s.areaRoom ch then s.placeGroup ch g else s.noRoom ch g
  | _ => s

/-- R117: a re-read completes, with a value (OKAY) or without (ERROR). -/
def State.reReadDone (s : State) (ch : Chan) (value : Option Word) : State :=
  (match value with
    | some v => s.offerRelease ch v
    | none => s).recheckGroup ch

/-! ## Bursts (R123, R124) -/

/-- R124: what the completion of a group counts. -/
def Counters.groupWritten (c : Counters) (g : Group) : Counters :=
  { c with
    recordsWritten := if g.alone then c.recordsWritten else saturate c.recordsWritten 1
    bytesWritten := saturate c.bytesWritten g.needed }

/-- R124, R127: the buffer of the group's record is released; a GAP alone has none. -/
def State.releaseRecord (s : State) (ch : Chan) (g : Group) : State := if g.alone then s else s.releaseHead ch

/-- The tally of the group's record, none for a GAP alone. -/
def Channel.groupTally (c : Channel) (g : Group) : Option Tally :=
  if g.alone then none else c.capture.queue.head?.bind (·.tally)

/-- R124: the group is complete. -/
def State.groupDone (s : State) (ch : Chan) (g : Group) : State :=
  (((((s.modWb ch fun w =>
      { w with writeMark := w.writeMark + BitVec.ofNat 32 g.needed, placement := .idle }).releaseRecord ch g).count ch
    (Counters.groupWritten · g)).request (.markWrite ch)).takeTally ch ((s.chan ch).groupTally g)).writebackNext ch

/-- R123, R124: a burst completes with OKAY. -/
def State.burstDone (s : State) (ch : Chan) : State :=
  match (s.chan ch).wb.placement with
  | .writing g (_ :: b :: rest) =>
    (s.modWb ch fun w => { w with placement := .writing g (b :: rest) }).request (.recordBurst ch)
  | .writing g _ => s.groupDone ch g
  | _ => s

/-! ## Mark writes and notices (R128 to R130) -/

/-- The capture_notify_bytes of the run settings in force (R48). -/
def ProgramUnit.notifyBytes (p : ProgramUnit) : Nat := (p.settings.map fun r => r.captureNotifyBytes.toNat).getD 0

/-- R129, R130: a capture notice. -/
def State.captureNotice (s : State) (ch : Chan) : State :=
  (s.modWb ch fun w => { w with notified := w.published, holdoff := none }).raise (.capture ch)

/-- R129: a mark write that carries the published write mark of this run again changes only the accepted release mark
(log 20). -/
def Writeback.noAdvance (w : Writeback) (carried : Word) : Bool :=
  carried == w.notified || (w.runMarked && carried == w.published)

/-- R128 to R130: a mark write that carried a write mark completes with OKAY. -/
def State.markDone (s : State) (ch : Chan) (carried : Word) : State :=
  let w := (s.chan ch).wb
  let t := s.modWb ch fun w => { w with published := carried, runMarked := true }
  if w.noAdvance carried then t
  else if (s.chan ch).prog.notifyBytes ≤ (carried - w.notified).toNat then t.captureNotice ch
  else t.modWb ch fun w => { w with holdoff := startHoldoff w.holdoff s.params.holdoffUs }

/-- R133: the channel's writeback is settled. -/
def State.settled (s : State) (ch : Chan) : Bool :=
  let c := s.chan ch
  c.capture.queue.isEmpty && c.wb.placement == .idle && c.wb.spell.isNone
    && !s.port.outstanding (.recordBurst ch) && !s.port.outstanding (.markWrite ch)

end Sys2Proof.Machine
end

