-- ==== Sys2Proof/Machine/Capture.lean ====
section
/-! DEFINITION. The Capture Assemblers (05): judging frames, filling records, closing and truncating them. -/

namespace Sys2Proof.Machine

/-! ## Filling a record -/

/-- R102, R103: the bytes of a window that is complete join the payload and the CRC, and the cursor moves on. -/
def Fill.completeWindow (f : Fill) (bits : List Bool) : Fill :=
  let bytes := packBits bits.reverse
  { f with cursor := f.cursor + 1, payload := f.payload ++ bytes, partialWindow := [], crc := crcBytes f.crc bytes }

/-- R101 to R103: the record takes bit `index` of its frame. -/
def Fill.take (f : Fill) (index : Nat) (bit : Bool) : Fill :=
  match f.plan.windows[f.cursor]? with
  | none => f
  | some w =>
    if w.start ≤ index ∧ index < w.start + w.length then
      if index + 1 = w.start + w.length then f.completeWindow (bit :: f.partialWindow)
      else { f with partialWindow := bit :: f.partialWindow }
    else f

/-- Every window of the plan is complete (R105). -/
def Fill.complete (f : Fill) : Bool := f.plan.windows.length ≤ f.cursor

/-! ## Closing -/

/-- R98, R105, R107: the record in fill closes: it joins the writeback queue and counts in frames_captured, and the Writeback
Unit takes it up when it is at the head. -/
def State.closeRecord (s : State) (ch : Chan) (truncated : Bool) (f : Fill) : State :=
  ((s.modCapture ch fun c =>
      { c with
        fill := none
        queue := c.queue ++ [⟨f.buffer, f.record ch truncated, f.frame.number, f.frame.timestamp, none⟩] }).count ch
    fun c => { c with framesCaptured := saturate c.framesCaptured 1 }).writebackNext ch

/-- R101, R105: a bit handed for the frame of the record. -/
def State.captureBit (s : State) (ch : Chan) (index : Nat) (bit : Bool) : State :=
  match (s.chan ch).capture.fill with
  | none => s
  | some f =>
    let g := f.take index bit
    if g.complete then s.closeRecord ch false g else s.modCapture ch fun c => { c with fill := some g }

/-- Bits handed in order, the first of them bit `index` of the frame. -/
def State.captureBits (s : State) (ch : Chan) : (index : Nat) → List Bool → State
  | _, [] => s
  | index, bit :: rest => State.captureBits (s.captureBit ch index bit) ch (index + 1) rest

/-- R108, R100: a truncation of the record in fill, if there is one. -/
def State.truncate (s : State) (ch : Chan) : State :=
  match (s.chan ch).capture.fill with
  | none => s
  | some f =>
    let t := s.count ch fun c => { c with truncatedRecords := saturate c.truncatedRecords 1 }
    if f.cursor = 0 then t.modCapture ch fun c => { c with fill := none } else t.closeRecord ch true f

/-! ## Judging a frame -/

/-- R97, R119: a kept frame that finds no FREE buffer. -/
def State.stallDrop (s : State) (ch : Chan) (frame : Frame) : State :=
  (s.modCapture ch fun c => { c with queue := holdTally frame.number frame.timestamp c.queue }).count ch
    fun c => { c with dropsStall := saturate c.dropsStall 1 }

/-- R96: a record begun for a frame. -/
def Fill.begin (buffer : BufferId) (frame : Frame) (runIndex : Byte) (r : RunProgram) : Fill where
  buffer := buffer
  frame := frame
  runIndex := runIndex
  plan := ⟨r.windows, r.generation⟩
  cursor := 0
  payload := []
  partialWindow := []
  crc := crcStart

/-- R95: the frame is kept. -/
def RunProgram.keeps (r : RunProgram) (phase : Nat) (frame : Frame) : Bool :=
  phase == 0 && (!frame.flywheel || r.keepFlywheel)

/-- R95 to R97: a frame is judged, under the run settings in force; `bits` are those handed with it. -/
def State.judge (s : State) (ch : Chan) (frame : Frame) (bits : List Bool) : State :=
  match (s.chan ch).prog.settings with
  | none => s
  | some r =>
    if r.keeps (s.chan ch).capture.phase frame then
      match (s.chan ch).capture.freeBuffer with
      | some id =>
        (s.modCapture ch fun c =>
          { c with fill := some (Fill.begin id frame (s.chan ch).prog.runIndex r) }).captureBits ch 0 bits
      | none => s.stallDrop ch frame
    else s

/-- R93: the decimation phase after a frame begun, under decimation `d`. -/
def phaseAfter (d phase : Nat) : Nat := if d ≤ phase then 0 else phase + 1

/-- The decimation of the run settings. -/
def ProgramUnit.decimation (p : ProgramUnit) : Nat := (p.settings.map (·.decimation)).getD 0

/-- R93: every frame begun advances the phase. -/
def State.advancePhase (s : State) (ch : Chan) : State :=
  s.modCapture ch fun c => { c with phase := phaseAfter (s.chan ch).prog.decimation c.phase }

/-- Sets the phase to 0 (R93). -/
def State.restartPhase (s : State) (ch : Chan) : State := s.modCapture ch fun c => { c with phase := 0 }

end Sys2Proof.Machine
end

