-- ==== Sys2Proof/Machine/Sync.lean ====
section
/-! DEFINITION. The Frame Synchronizers (01): history and distance, loss of lock, forced search, starting and stopping. -/

namespace Sys2Proof.Machine

/-! ## History and distance -/

/-- R2: a bit enters the history, after inversion. -/
def Synchronizer.shift (y : Synchronizer) (bit : Bool) : Synchronizer :=
  let bits := (bit != y.inverted) :: y.history
  { y with history := bits.take 64, spill := (bits.drop 64 ++ y.spill).take 2 }

/-- R4: the positions at which masked history bits differ from the pattern. -/
def distanceOf (history : List Bool) (r : RunProgram) : Nat :=
  ((List.range r.syncLength).filter fun i =>
    r.syncMask.getLsbD i && (history.getD i false != r.syncPattern.getLsbD i)).length

/-- R4: the distance at the latest bit, none when fewer than L bits are held. -/
def Synchronizer.distance (y : Synchronizer) (r : RunProgram) : Option Nat :=
  if r.syncLength ≤ y.history.length then some (distanceOf y.history r) else none

/-- A distance within a tolerance; a position that has none never matches (R4). -/
def within (distance : Option Nat) (tolerance : Nat) : Bool := distance.any (· ≤ tolerance)

/-- R4: the complement distance. -/
def complementDistance (r : RunProgram) (distance : Option Nat) : Option Nat :=
  distance.map (maskedCount r.syncLength r.syncMask - ·)

/-- R3: the history, the spill bits and the retained distances are cleared. -/
def Synchronizer.clear (y : Synchronizer) : Synchronizer :=
  { y with history := [], spill := [], lastDistance := none, heldOpen := none }

/-- A return to SEARCH: the counts become 0 (R9, R13, R15, R21) and no decision is held open. -/
def Synchronizer.toSearch (y : Synchronizer) : Synchronizer :=
  { y with state := .search, position := 0, checkCount := 0, missCount := 0, heldOpen := none }

/-- R29: OFF. -/
def Synchronizer.toOff (y : Synchronizer) : Synchronizer :=
  { y.clear with state := .off, position := 0, checkCount := 0, missCount := 0 }

/-- R27: the synchronizer at run start. -/
def Synchronizer.runStart (y : Synchronizer) (invert armed : Bool) : Synchronizer :=
  { y.clear with
    state := if armed then .off else .search
    position := 0
    checkCount := 0
    missCount := 0
    inverted := invert
    frameNumber := 0
    frameBegun := false
    exhausted := false }

/-- R25: the counts are brought within the new limits. R25 gives the check count its setting in CHECK only, and says that it never
exceeds check_count: that LOCK and FLYWHEEL lower it to the new check_count is the model's choice (log 18). -/
def Synchronizer.adjust (y : Synchronizer) (r : RunProgram) : Synchronizer :=
  { y with
    checkCount :=
      if y.state = .check then min y.checkCount (r.checkCount - 1)
      else if y.framing then min y.checkCount r.checkCount else y.checkCount
    missCount := if y.state = .flywheel then min y.missCount r.flywheelLimit else y.missCount }

/-- R17: the bits of a new frame already taken, bit 0 first, when the position counter stands at `position`. -/
def Synchronizer.frameBits (y : Synchronizer) (syncLength position : Nat) : List Bool :=
  ((y.history ++ y.spill).take (syncLength + position)).reverse

/-! ## What every block asks of the channel's slot and events -/

/-- R30: a slot status write is requested. -/
def State.statusChanged (s : State) (ch : Chan) : State := s.request (.statusWrite ch)

/-- R24: LOCK_LOST, naming the frame most recently begun; the frame ends for the Capture Assembler (R17, R109). -/
def State.lockLost (s : State) (ch : Chan) (reason : LossReason) : State :=
  ((s.count ch fun c => { c with losses := saturate c.losses 1 }).hand (some ch)
    (.lockLost reason (s.chan ch).sync.frameNumber)).truncate ch

/-- R21: the synchronizer's part of a clock loss. -/
def State.clockLost (s : State) (ch : Chan) : State :=
  match (s.chan ch).sync.state with
  | .off => s
  | .search => s.modSync ch (·.clear)
  | .check => (s.modSync ch (·.clear.toSearch)).statusChanged ch
  | .lock | .flywheel => ((s.modSync ch (·.clear.toSearch)).lockLost ch .clock).statusChanged ch

/-- R22: the synchronizer's part of a heavy change on a RUNNING channel. -/
def State.retune (s : State) (ch : Chan) (invert : Bool) : State :=
  let y := (s.chan ch).sync
  let t := s.modSync ch fun y => { y.clear.toSearch with inverted := invert }
  let u := if y.framing then t.lockLost ch .retune else t
  if y.state = .search ∧ y.inverted = invert then u else u.statusChanged ch

/-- R29: the synchronizer enters OFF, which ends the current frame (R109). -/
def State.stopSync (s : State) (ch : Chan) : State := (s.modSync ch (·.toOff)).truncate ch

/-- R28: OFF to SEARCH with a cleared history. -/
def State.startSync (s : State) (ch : Chan) : State := s.modSync ch (·.clear.toSearch)

end Sys2Proof.Machine
end

