-- ==== Sys2Proof/Machine/Monitor.lean ====
section
/-! DEFINITION. The Activity Monitors (02). -/

namespace Sys2Proof.Machine

/-! ## One bit clock -/

/-- R35: the bit clock is a transition. -/
def Monitor.transition (m : Monitor) (bit : Bool) : Bool := m.lastBit.any (· != bit)

/-- R35: the quiet run after a bit clock in ACTIVE. -/
def Monitor.nextQuietRun (m : Monitor) (bit : Bool) : Nat := if m.transition bit then 0 else m.quietRun + 1

/-- R36: the window transitions after a bit clock in QUIET. -/
def Monitor.nextTransitions (m : Monitor) (bit : Bool) : Nat :=
  m.windowTransitions + (m.transition bit).toNat

/-- R39: the recovery count after a bit clock in NOCLOCK. -/
def Monitor.nextRecovery (m : Monitor) (timeout : Nat) : Nat :=
  if m.recovery = 0 ∨ m.gap.all (· ≤ timeout) then m.recovery + 1 else 1

/-- Entry to QUIET (R35, R39, R41): a new window. -/
def Monitor.toQuiet (m : Monitor) : Monitor := { m with state := .quiet, windowPosition := 0, windowTransitions := 0 }

/-- R35, R36, R39: the state and the counts after a bit clock; `timeout` is the clock timeout in ticks. That the window counts are
0 after entry to ACTIVE is the model's choice: R36 names the quiet run only (log 18). -/
def Monitor.judge (m : Monitor) (timeout : Nat) (bit : Bool) : Monitor :=
  match m.state with
  | .active =>
    if m.nextQuietRun bit = 4096 then { m.toQuiet with quietRun := 4096 }
    else { m with quietRun := m.nextQuietRun bit }
  | .quiet =>
    if m.nextTransitions bit = 64 then
      { m with state := .active, quietRun := 0, windowPosition := 0, windowTransitions := 0 }
    else if m.windowPosition + 1 = 512 then { m with windowPosition := 0, windowTransitions := 0 }
    else { m with windowPosition := m.windowPosition + 1, windowTransitions := m.nextTransitions bit }
  | .noclock =>
    if m.nextRecovery timeout = 256 then { m.toQuiet with recovery := 256 }
    else { m with recovery := m.nextRecovery timeout }

/-- A bit clock: it is judged, sets the last bit, and restarts the gap timer (R35, R37, R39). -/
def Monitor.clock (m : Monitor) (timeout : Nat) (bit : Bool) : Monitor :=
  { m.judge timeout bit with lastBit := some bit, gap := some 0 }

/-- R37: the monitor at entry to NOCLOCK. -/
def Monitor.toNoclock (m : Monitor) : Monitor :=
  { m with
    state := .noclock
    lastBit := none
    quietRun := 0
    windowPosition := 0
    windowTransitions := 0
    recovery := 0 }

/-- R41: the monitor restarted on a new input. -/
def Monitor.restart (m : Monitor) : Monitor :=
  { m.toQuiet with lastBit := none, recovery := 0, gap := some 0 }

/-- The clock timeout in force, in ticks (R40). -/
def ProgramUnit.timeoutTicks (p : ProgramUnit) : Nat := ticksOfUs p.clockTimeout

/-! ## Reports (R42) -/

/-- R42: what a change of the activity state counts. -/
def Counters.activityEntered (c : Counters) : ActivityState → Counters
  | .active => c
  | .quiet => { c with quietEntries := saturate c.quietEntries 1 }
  | .noclock => { c with noclockEntries := saturate c.noclockEntries 1 }

/-- R42: the ACTIVITY event and the counter of a change of the activity state. -/
def State.activityEntered (s : State) (ch : Chan) (a : ActivityState) : State :=
  (s.count ch (Counters.activityEntered · a)).hand (some ch) (.activity a)

/-- A bit clock reaches an evaluating monitor (R35, R36, R39, R42). -/
def State.monitorClock (s : State) (ch : Chan) (bit : Bool) : State :=
  let c := s.chan ch
  let m := c.monitor.clock c.prog.timeoutTicks bit
  let t := s.modMonitor ch fun _ => m
  if m.state = c.monitor.state then t else (t.activityEntered ch m.state).statusChanged ch

/-- R37, R38: entry to NOCLOCK. -/
def State.enterNoclock (s : State) (ch : Chan) : State :=
  ((((s.modMonitor ch (·.toNoclock)).activityEntered ch .noclock).clockLost ch).truncate ch).statusChanged ch

/-- R41: the restart on a new input. -/
def State.restartMonitor (s : State) (ch : Chan) : State :=
  let t := s.modMonitor ch (·.restart)
  if (s.chan ch).monitor.state = .quiet then t else (t.activityEntered ch .quiet).statusChanged ch

/-- R37: the gap timer stands at or beyond the timeout, in ACTIVE or QUIET. -/
def Channel.gapReached (c : Channel) : Bool :=
  c.monitor.evaluating && c.monitor.state != .noclock && c.monitor.gap.any (c.prog.timeoutTicks ≤ ·)

/-- R31, R40, R41: the monitor's part of an application that has replaced the run settings, given the input selected
before. -/
def State.monitorApply (s : State) (ch : Chan) (before : Input) : State :=
  if (s.chan ch).prog.input ≠ before then s.restartMonitor ch
  else if (s.chan ch).gapReached then s.enterNoclock ch
  else s

end Sys2Proof.Machine
end

