-- ==== Sys2Proof/Machine/Programs.lean ====
section
/-! DEFINITION. The Program Units (03, 04): sampling, fetching, refusing and applying programs, and the run states. -/

namespace Sys2Proof.Machine

/-! ## Run states -/

/-- R69: a change of run state is reported and shown in the slot. -/
def State.channelState (s : State) (ch : Chan) (cause : Cause) : State :=
  (s.hand (some ch) (.channelState (s.chan ch).prog.runState (s.chan ch).prog.runIndex cause)).statusChanged ch

/-- Sets the run state. -/
def State.setRunState (s : State) (ch : Chan) (r : RunState) : State := s.modProg ch fun p => { p with runState := r }

/-- R64, R68: entry to HALTED: the synchronizer stops, the record in fill is truncated, and an open spell may now be written
alone (R127). -/
def State.haltChannel (s : State) (ch : Chan) (cause : Cause) : State :=
  ((((s.setRunState ch .halted).stopSync ch).channelState ch cause)).writebackNext ch

/-- R28, R62: ARMED to RUNNING. -/
def State.startFraming (s : State) (ch : Chan) (cause : Cause) : State :=
  ((s.setRunState ch .running).startSync ch).channelState ch cause

/-- R66, R110, R132: the Capture Assembler and the Writeback Unit at entry to FAILED or FAULTED. -/
def Channel.discard (c : Channel) : Channel :=
  { c with capture := .reset, wb := { c.wb with spell := none, placement := .idle } }

/-- R66: entry to FAILED. -/
def State.failChannel (s : State) (ch : Chan) : State :=
  (s.modChan ch fun c =>
    { c.discard with
      sync := c.sync.toOff
      prog := { c.prog with runState := .failed, held := none } }).channelState ch .writeError

/-- R132: a burst completes with ERROR. -/
def State.burstFailed (s : State) (ch : Chan) (address : Nat) : State :=
  (s.hand (some ch) (.captureFault (BitVec.ofNat 48 (busAddress address)))).failChannel ch

/-! ## Sampling (R71 to R74) -/

/-- R74: the channel's slot is sampled. -/
def State.sampleSlot (s : State) (ch : Chan) : State := s.requestRead (.slotRead ch)

/-- R72: the channel samples its slot at idle polls. -/
def Channel.polled (c : Channel) : Bool :=
  match c.prog.runState, c.sync.state with
  | .running, .check | .running, .lock | .running, .flywheel => false
  | _, _ => true

/-! ## Refusal (R83) -/

/-- R83: a program is refused. -/
def State.reject (s : State) (ch : Chan) (generation : Word) (reason : RejectReason) : State :=
  ((s.modProg ch fun p => { p with rejected := generation, rejectReason := reason }).request
    (.generationWrite ch)).hand (some ch) (.programRejected reason generation)

/-! ## Application (R88) -/

/-- R88: the program is in force, a generation write is requested and PROGRAM_ADOPTED produced. -/
def State.adopt (s : State) (ch : Chan) (p : Program) (change : ChangeClass) : State :=
  ((s.modProg ch fun u =>
    { u with
      inForce := some p
      settings := match p with
        | .run r => some r
        | .halt _ _ => u.settings }).request (.generationWrite ch)).hand (some ch)
    (.programAdopted change p.generation)

/-- R51, R64: a HALT applies. -/
def State.applyHalt (s : State) (ch : Chan) (generation : Word) (cut : Bool) : State :=
  let t := s.adopt ch (.halt generation cut) .light
  if (s.chan ch).prog.runState = .halted then t else t.haltChannel ch .program

/-- R54: the AREA test on the latest slot values. -/
def ProgramUnit.areaUsable (p : ProgramUnit) : Bool :=
  addressUsable p.latestAreaBase 4096 && powerOfTwoIn 14 24 p.latestAreaSize.toNat

/-- R61, steps 1 to 3: the run index and the capture area. -/
def ProgramUnit.startRun (p : ProgramUnit) : ProgramUnit :=
  { p with runIndex := p.runIndex + 1, area := some ⟨p.latestAreaBase.toNat, p.latestAreaSize.toNat⟩ }

/-- R61, step 3: the marks of a run that starts at a release mark. -/
def Writeback.startRun (w : Writeback) (release : Word) : Writeback :=
  { w with
    writeMark := release
    acceptedRelease := release
    runMarked := false
    notified := release
    holdoff := none
    lastBad := none
    spell := none }

/-- R61, steps 1 to 5. -/
def State.beginRun (s : State) (ch : Chan) : State :=
  s.modChan ch fun c =>
    { c with prog := c.prog.startRun, wb := c.wb.startRun c.prog.latestRelease, capture := .reset }

/-- R61: a run starts. -/
def State.runStart (s : State) (ch : Chan) (r : RunProgram) : State :=
  ((((((s.beginRun ch).adopt ch (.run r) .start).monitorApply ch (s.chan ch).prog.input).modSync ch
    (·.runStart r.invert r.startOnStrt)).setRunState ch (if r.startOnStrt then .armed else .running)).channelState ch
      .program).request (.markWrite ch)

/-- Bits 0 to `length - 1` of a pattern (R56). -/
def lowBits (length : Nat) (pattern : Dword) : Nat := pattern.toNat % 2 ^ length

/-- R56: the new program differs from the run settings in a heavy field. -/
def RunProgram.heavyOver (new old : RunProgram) : Bool :=
  new.inputTest != old.inputTest || new.invert != old.invert || new.syncLength != old.syncLength
    || lowBits new.syncLength new.syncPattern != lowBits new.syncLength old.syncPattern
    || lowBits new.syncLength new.syncMask != lowBits new.syncLength old.syncMask
    || new.frameLength != old.frameLength

/-- R56: the change class of a program over the run settings. -/
def ProgramUnit.changeClass (p : ProgramUnit) (r : RunProgram) : ChangeClass :=
  if p.settings.all r.heavyOver then .heavy else .light

/-- R57, R93: the synchronizer's and the Capture Assembler's part of a light change, over the decimation before it. -/
def State.lighten (s : State) (ch : Chan) (r : RunProgram) (decimation : Nat) : State :=
  let t := s.modSync ch (·.adjust r)
  if r.decimation = decimation then t else t.restartPhase ch

/-- R22: a program that replaces another in ARMED sets the inversion state (R28, R30). -/
def State.armedInvert (s : State) (ch : Chan) (invert : Bool) : State :=
  if (s.chan ch).sync.inverted = invert then s
  else (s.modSync ch fun y => { y with inverted := invert }).statusChanged ch

/-- R57, R58, R62: what a change does to the synchronizer and the Capture Assembler. -/
def State.changeFraming (s : State) (ch : Chan) (r : RunProgram) (change : ChangeClass) (decimation : Nat) : State :=
  match change, (s.chan ch).prog.runState with
  | .heavy, .running => s.retune ch r.invert
  | .heavy, _ => s.armedInvert ch r.invert
  | _, .running => s.lighten ch r decimation
  | _, _ => (s.armedInvert ch r.invert).lighten ch r decimation

/-- R89: a program with CUT truncates the record in fill. -/
def State.cut (s : State) (ch : Chan) (r : RunProgram) : State := if r.cut then s.truncate ch else s

/-- R62: an ARMED channel whose new program has START_ON_STRT clear enters RUNNING. -/
def State.disarm (s : State) (ch : Chan) (r : RunProgram) : State :=
  if (s.chan ch).prog.runState = .armed ∧ r.startOnStrt = false then s.startFraming ch .program else s

/-- R56 to R58, R62: a RUN program applies to an ARMED or RUNNING channel. -/
def State.applyChange (s : State) (ch : Chan) (r : RunProgram) : State :=
  let p := (s.chan ch).prog
  let change := p.changeClass r
  ((((s.adopt ch (.run r) change).cut ch r).changeFraming ch r change p.decimation).monitorApply ch p.input).disarm ch r

/-- R88: a valid program applies. -/
def State.apply (s : State) (ch : Chan) (p : Program) : State :=
  match p, (s.chan ch).prog.runState with
  | .halt generation cut, _ => s.applyHalt ch generation cut
  | .run r, .armed => s.applyChange ch r
  | .run r, .running => s.applyChange ch r
  | .run r, _ => if (s.chan ch).prog.areaUsable then s.runStart ch r else s.reject ch r.generation .area

/-- The pending program applies: it is pending no more (R85). -/
def State.takeHeld (s : State) (ch : Chan) : State :=
  match (s.chan ch).prog.held with
  | none => s
  | some p => (s.modProg ch fun u => { u with held := none }).apply ch p

/-- R85: the channel has come to a sync decision or to SEARCH: a program held for a boundary applies. -/
def State.takeHeldFraming (s : State) (ch : Chan) : State :=
  if (s.chan ch).prog.runState = .running then s.takeHeld ch else s

/-- R37, R38, R85: entry to NOCLOCK, and the pending program that applies at the synchronizer's return to SEARCH. -/
def State.gapExpired (s : State) (ch : Chan) : State := (s.enterNoclock ch).takeHeldFraming ch

/-- A run start is due once writeback is settled (R60). -/
def RunState.startsRun : RunState → Bool
  | .idle | .halted | .failed => true
  | .armed | .running => false

/-- R84: a valid program applies at once. -/
def State.appliesNow (s : State) (ch : Chan) (p : Program) : Bool :=
  let c := s.chan ch
  match p, c.prog.runState.startsRun with
  | .run _, true => s.settled ch
  | _, _ => p.cut || c.polled

/-- R86: a newer valid program replaces the pending one. -/
def State.supersede (s : State) (ch : Chan) (p : Program) : State :=
  match (s.chan ch).prog.held with
  | none => s
  | some q =>
    (s.modProg ch fun u => { u with held := none }).hand (some ch) (.programSuperseded q.generation p.generation)

/-- R84, R86: a fetch has yielded a valid program. -/
def State.decideProgram (s : State) (ch : Chan) (p : Program) : State :=
  let t := s.supersede ch p
  if t.appliesNow ch p then t.apply ch p else t.modProg ch fun u => { u with held := some p }

/-! ## Fetching (R76 to R81) -/

/-- R76: a generation is new. -/
def ProgramUnit.isNew (p : ProgramUnit) (generation : Word) : Bool :=
  generation != 0 && generation != p.adopted && generation != p.rejected
    && p.held.all (·.generation != generation)

/-- R76: the program generation of a slot read is examined. -/
def State.examine (s : State) (ch : Chan) (generation : Word) (pointer : Dword) : State :=
  let p := (s.chan ch).prog
  if p.isNew generation ∧ p.fetch = none then
    if addressUsable pointer 8 then
      (s.modProg ch fun u => { u with fetch := some ⟨generation, pointer, none⟩ }).request (.fetchFixed ch)
    else s.reject ch generation .address
  else s

/-- The fetch ends (R81). -/
def State.endFetch (s : State) (ch : Chan) : State := s.modProg ch fun u => { u with fetch := none }

/-- R77: the first read of a fetch completes with OKAY. -/
def State.fixedDone (s : State) (ch : Chan) (bytes : List Byte) : State :=
  (s.modProg ch fun u => { u with fetch := u.fetch.map fun f => { f with fixedPart := some bytes } }).request
    (.fetchTail ch)

/-- R80, R81: a read of a fetch completes with ERROR. -/
def State.fetchFailed (s : State) (ch : Chan) : State :=
  match (s.chan ch).prog.fetch with
  | none => s
  | some f =>
    if s.device = .running then (s.endFetch ch).reject ch f.generation .fetchError else s.endFetch ch

/-- R78: a completed fetch is torn. -/
def Fetch.torn (f : Fetch) (fixedPart secondBytes : List Byte) : Bool :=
  !(wordAt fixedPart 0 == f.generation && tailGeneration secondBytes == f.generation)

/-- R79: a torn fetch; the fourth in a row produces PROGRAM_TORN. -/
def State.fetchTorn (s : State) (ch : Chan) (f : Fetch) : State :=
  let t := s.count ch fun c => { c with tornReads := saturate c.tornReads 1 }
  if (s.chan ch).prog.tornCount = 3 then
    (t.modProg ch fun u => { u with tornCount := 0 }).hand (some ch) (.programTorn f.generation)
  else t.modProg ch fun u => { u with tornCount := u.tornCount + 1 }

/-- R78, R84: a whole fetch is validated and decided. -/
def State.fetchWhole (s : State) (ch : Chan) (fixedPart secondBytes : List Byte) : State :=
  let t := s.modProg ch fun u => { u with tornCount := 0 }
  match parseProgram fixedPart secondBytes with
  | (p, .none) => t.decideProgram ch p
  | (p, reason) => t.reject ch p.generation reason

/-- R78, R81: the second read of a fetch completes with OKAY. -/
def State.tailDone (s : State) (ch : Chan) (secondBytes : List Byte) : State :=
  match (s.chan ch).prog.fetch with
  | none => s
  | some f =>
    let t := s.endFetch ch
    if s.device = .running then
      match f.fixedPart with
      | none => t
      | some fixedPart =>
        if f.torn fixedPart secondBytes then t.fetchTorn ch f else t.fetchWhole ch fixedPart secondBytes
    else t

end Sys2Proof.Machine
end

