-- ==== Sys2Proof/Machine/Decisions.lean ====
section
/-! DEFINITION. What the Frame Synchronizers do with each bit: search, sync decisions and the frames they begin (01). -/

namespace Sys2Proof.Machine

/-! ## Decisions and their outcomes -/

/-- How a frame comes to be begun: by the decision that completes CHECK, at the exact, the early or the late position, or by a
miss (R16). -/
inductive FrameKind where
  | first | exact | early | late | flywheel
  deriving DecidableEq, Repr

/-- A frame to begin: its kind, the position counter after the decision and its sync distance. -/
structure FrameStart where
  kind : FrameKind
  position : Nat
  distance : Nat
  deriving DecidableEq, Repr

/-- The outcome of a decision: a success below check_count, a return to SEARCH, or a frame. -/
inductive Verdict where
  | checked
  | lost
  | begun (start : FrameStart)
  deriving DecidableEq, Repr

/-- R13, R15: the miss count a further miss brings. -/
def Synchronizer.nextMiss (y : Synchronizer) : Nat := if y.state = .flywheel then y.missCount + 1 else 1

/-- R13, R15: a miss, with the distance of the exact position (taken as L when none was computed, R16). -/
def Synchronizer.miss (y : Synchronizer) (r : RunProgram) (position : Nat) (exact : Option Nat) : Verdict :=
  if y.nextMiss ≤ r.flywheelLimit then .begun ⟨.flywheel, position, exact.getD r.syncLength⟩ else .lost

/-- R9, R10: the decision in CHECK. -/
def Synchronizer.decideCheck (y : Synchronizer) (r : RunProgram) (d : Option Nat) : Verdict :=
  if within d r.checkTol then
    if y.checkCount + 1 < r.checkCount then .checked else .begun ⟨.first, 0, d.getD 0⟩
  else .lost

/-- R11, R14: the test of the exact position in LOCK or FLYWHEEL; none when the decision is held open. -/
def Synchronizer.decideExact (y : Synchronizer) (r : RunProgram) (d : Option Nat) : Option Verdict :=
  if within d r.lockTol then some (.begun ⟨.exact, 0, d.getD 0⟩)
  else if r.slipWindow = 1 then none
  else some (y.miss r 0 d)

/-- R12: the completion of a decision held open, at the late position. -/
def Synchronizer.decideLate (y : Synchronizer) (r : RunProgram) (h : HeldDecision) (d : Option Nat) : Verdict :=
  if r.slipWindow = 1 ∧ within h.early r.lockTol = true then .begun ⟨.early, 2, h.early.getD 0⟩
  else if r.slipWindow = 1 ∧ within d r.lockTol = true then .begun ⟨.late, 0, d.getD 0⟩
  else y.miss r 1 h.exact

/-! ## Frames begun (R16) -/

/-- R16: the number of the next frame. -/
def Synchronizer.nextNumber (y : Synchronizer) : Word := if y.frameBegun then y.frameNumber + 1 else 0

/-- R16: the frame with its attributes. -/
def Synchronizer.frame (y : Synchronizer) (k : FrameStart) (now : Dword) : Frame where
  number := y.nextNumber
  flywheel := k.kind = .flywheel
  slippedEarly := k.kind = .early
  slippedLate := k.kind = .late
  inverted := y.inverted
  distance := k.distance
  timestamp := now
  firstOfLock := k.kind = .first

/-- The sync state that a frame's kind brings (R10, R11, R13 to R15). -/
def FrameKind.state : FrameKind → SyncState
  | .flywheel => .flywheel
  | .first | .exact | .early | .late => .lock

/-- R10 to R16, R18: the synchronizer once the frame is begun. -/
def Synchronizer.begin (y : Synchronizer) (k : FrameStart) : Synchronizer :=
  { y with
    state := k.kind.state
    position := k.position
    checkCount := if k.kind = .first then y.checkCount + 1 else y.checkCount
    missCount := if k.kind = .flywheel then y.nextMiss else 0
    heldOpen := none
    frameNumber := y.nextNumber
    frameBegun := true
    exhausted := y.exhausted || y.nextNumber == 0xFFFFFFFF }

/-- R20: what an accepted decision counts, frame or no frame. -/
def Counters.accepted (c : Counters) (k : FrameStart) : Counters :=
  match k.kind with
  | .first | .flywheel => c
  | .exact => { c with syncBitErrors := saturate c.syncBitErrors k.distance }
  | .early | .late =>
    { c with syncBitErrors := saturate c.syncBitErrors k.distance, slips := saturate c.slips 1 }

/-- R16, R20: what a frame begun counts. -/
def Counters.framed (c : Counters) (k : FrameStart) : Counters :=
  { c with
    framesLocked := saturate c.framesLocked 1
    flywheelFrames := if k.kind = .flywheel then saturate c.flywheelFrames 1 else c.flywheelFrames }

/-- R10, R93: the decision that completes CHECK sets the decimation phase to 0 and produces LOCK_ACQUIRED. -/
def State.lockAcquired (s : State) (ch : Chan) : State :=
  (s.restartPhase ch).hand (some ch) (.lockAcquired (s.chan ch).sync.inverted (s.chan ch).sync.frameNumber)

/-- R16: a frame is begun. -/
def State.frameBegun (s : State) (ch : Chan) (k : FrameStart) : State :=
  let t := (s.modSync ch (·.begin k)).count ch fun c => (c.accepted k).framed k
  let u := if k.kind = .first then t.lockAcquired ch else t
  if (s.chan ch).sync.state = k.kind.state then u else u.statusChanged ch

/-- R9, R13, R15, R18: a decision that returns the synchronizer to SEARCH. -/
def State.syncLost (s : State) (ch : Chan) : State :=
  let t := s.modSync ch (·.toSearch)
  (if (s.chan ch).sync.framing then t.lockLost ch .misses else t).statusChanged ch

/-- R19, R71, R85: a sync decision is a boundary and a sampling point. -/
def State.boundary (s : State) (ch : Chan) : State := (s.takeHeldFraming ch).sampleSlot ch

/-- R17, R93, R94: the Capture Assembler judges the frame begun, unless a program applied at the decision has ended it; the
phase advances in any case. -/
def State.frameJudged (s : State) (ch : Chan) (frame : Frame) (bits : List Bool) : State :=
  (if (s.chan ch).sync.framing then s.judge ch frame bits else s).advancePhase ch

/-- R9: a check decision that succeeds and does not complete CHECK. -/
def Synchronizer.checked (y : Synchronizer) : Synchronizer := { y with checkCount := y.checkCount + 1, position := 0 }

/-- R9 to R19: the decision takes effect, and what follows from it. -/
def State.conclude (s : State) (ch : Chan) (r : RunProgram) (v : Verdict) : State :=
  let y := (s.chan ch).sync
  match v with
  | .checked => (s.modSync ch (·.checked)).boundary ch
  | .lost => (s.syncLost ch).boundary ch
  | .begun k =>
    if y.exhausted then ((s.count ch (Counters.accepted · k)).syncLost ch).boundary ch
    else ((s.frameBegun ch k).boundary ch).frameJudged ch (y.frame k s.timebase) (y.frameBits r.syncLength k.position)

/-! ## One bit -/

/-- R7: entry to CHECK, with the anchor here. -/
def Synchronizer.toCheck (y : Synchronizer) : Synchronizer :=
  { y with state := .check, position := 0, checkCount := 0, missCount := 0 }

/-- R8: a polarity flip. -/
def Synchronizer.flip (y : Synchronizer) (d : Option Nat) : Synchronizer :=
  { y with inverted := !y.inverted, history := y.history.map not, spill := y.spill.map not, lastDistance := d }

/-- R8: a match in the complement. -/
def State.polarityFlip (s : State) (ch : Chan) (complement : Option Nat) : State :=
  ((s.modSync ch (·.flip complement)).count ch fun c => { c with polarityFlips := saturate c.polarityFlips 1 }).hand
    (some ch) (.polarityFlip (!(s.chan ch).sync.inverted))

/-- R7: entry to CHECK is a change of sync state. -/
def State.enterCheck (s : State) (ch : Chan) : State := (s.modSync ch (·.toCheck)).statusChanged ch

/-- R7, R8, R18: a bit taken in SEARCH. Once the frame numbers are used up no match has any effect: a complement match then
flips, reports and counts nothing, which R18 does not say (log 17). -/
def State.searchBit (s : State) (ch : Chan) (r : RunProgram) (d : Option Nat) : State :=
  if (s.chan ch).sync.exhausted then s
  else if within d r.searchTol then s.enterCheck ch
  else if r.autoPolarity ∧ within (complementDistance r d) r.searchTol = true then
    (s.polarityFlip ch (complementDistance r d)).enterCheck ch
  else s

/-- R9, R11, R12: the decision that the position counter brings, if it brings one; `early` is the distance of the previous
position. -/
def State.decisionBit (s : State) (ch : Chan) (r : RunProgram) (d early : Option Nat) : State :=
  let y := (s.chan ch).sync
  match y.heldOpen with
  | some h => if y.position = r.frameLength + 1 then s.conclude ch r (y.decideLate r h d) else s
  | none =>
    if y.position = r.frameLength then
      if y.state = .check then s.conclude ch r (y.decideCheck r d)
      else match y.decideExact r d with
        | some v => s.conclude ch r v
        | none => s.modSync ch fun y => { y with heldOpen := some ⟨d, early⟩ }
    else s

/-- R17: a bit taken in LOCK or FLYWHEEL is handed with its number in the current frame. -/
def State.handBit (s : State) (ch : Chan) (r : RunProgram) : State :=
  let y := (s.chan ch).sync
  if y.framing then s.captureBit ch (r.syncLength - 1 + y.position) (y.history.headD false) else s

/-- R2, R4, R5: the synchronizer once a bit is in its history, its distance retained and, outside SEARCH, counted. -/
def Synchronizer.take (y : Synchronizer) (r : RunProgram) (bit : Bool) : Synchronizer :=
  let z := y.shift bit
  { z with
    lastDistance := z.distance r
    position := if y.state = .search then y.position else y.position + 1 }

/-- R2: the synchronizer takes a bit. -/
def State.takeBit (s : State) (ch : Chan) (bit : Bool) : State :=
  let y := (s.chan ch).sync
  match y.state, (s.chan ch).prog.settings with
  | .off, _ => s
  | _, none => s
  | .search, some r =>
    (s.modSync ch (·.take r bit)).searchBit ch r (y.take r bit).lastDistance
  | _, some r =>
    ((s.modSync ch (·.take r bit)).handBit ch r).decisionBit ch r (y.take r bit).lastDistance y.lastDistance

/-- R32, R33: a bit clock of the selected input reaches the monitor and, unless the monitor was in NOCLOCK, its bit the
synchronizer. -/
def State.bitClock (s : State) (ch : Chan) (bit : Bool) : State :=
  let m := (s.chan ch).monitor
  if m.evaluating then
    if m.state = .noclock then s.monitorClock ch bit else (s.monitorClock ch bit).takeBit ch bit
  else s

end Sys2Proof.Machine
end

