-- ==== Sys2Proof/Machine/Snapshots.lean ====
section
/-! DEFINITION. The Statistics Unit (08): taking and delivering snapshots. -/

namespace Sys2Proof.Machine

/-- R153: a snapshot is taken. -/
def Statistics.latchSnapshot (st : Statistics) (now : Dword) (request : Half) (clear : Bool) : Statistics :=
  { st with
    latch := some ⟨now, st.counters⟩
    latchedRequest := request
    counters := if clear then .zero else st.counters }

/-- R153, R158: the request of a slot read reaches the Statistics Unit. -/
def State.offerStats (s : State) (ch : Chan) (request : Half) (clear : Bool) : State :=
  if request ≠ (s.chan ch).stats.served ∧ s.device = .running ∧ s.snapshotWrite ch = .none then
    (s.modStats ch fun st => st.latchSnapshot s.timebase request clear).request (.blockWrite ch)
  else s

/-- R155: the block write completes with OKAY. -/
def State.blockDone (s : State) (ch : Chan) : State :=
  (s.modStats ch fun st => { st with served := st.latchedRequest, latch := none }).request (.servedWrite ch)

/-- R156: the block write completes with ERROR. -/
def State.blockFailed (s : State) (ch : Chan) : State :=
  (s.modStats ch fun st => { st with latch := none }).hand (some ch) (.statsFault (s.chan ch).stats.latchedRequest)

end Sys2Proof.Machine
end

