-- ==== Sys2Proof/Machine/TestSource.lean ====
section
/-! DEFINITION. The Test Source (09): sampling, fetching and adopting settings, and the stream. -/

namespace Sys2Proof.Machine

/-- Changes the Test Source. -/
def State.modTest (s : State) (f : TestSource → TestSource) : State := { s with test := f s.test }

/-- R167: a status write is requested. -/
def State.testStatusChanged (s : State) : State := s.request .testStatus

/-- R161: the test generation is sampled. -/
def State.sampleTest (s : State) : State := s.requestRead .testSample

/-! ## The stream (R168 to R171) -/

/-- R169: the register's bits 1 to n as they are held. -/
def lfsrLoad (length : Nat) (seed : Word) : Word := BitVec.ofNat 32 (seed.toNat % 2 ^ length)

/-- R169: the feedback bit. -/
def lfsrFeedback (length tap : Nat) (register : Word) : Bool :=
  if register = 0 then true else register.getLsbD (length - 1) != register.getLsbD (tap - 1)

/-- R169: one step of the register. -/
def lfsrStep (length tap : Nat) (register : Word) : Word :=
  BitVec.ofNat 32 ((2 * register.toNat + (lfsrFeedback length tap register).toNat) % 2 ^ length)

/-- R171: the start of a test frame. -/
def TestSource.startFrame (t : TestSource) (p : TestSettings) : TestSource :=
  let count := if p.corruptPeriod = 0 then t.corruptionCount else t.corruptionCount + 1
  let corrupted := p.corruptPeriod ≠ 0 && count = p.corruptPeriod
  { t with position := 0, corrupted := corrupted, corruptionCount := if corrupted then 0 else count }

/-- R168: entry to RUNNING under settings. -/
def TestSource.enterRunning (t : TestSource) (p : TestSettings) : TestSource :=
  { t with
    state := .running
    lfsr := lfsrLoad p.lfsrLength p.seed
    errorCount := 0
    corruptionCount := 0
    stopRequested := false }.startFrame p

/-- R172: the stop. -/
def TestSource.stop (t : TestSource) : TestSource :=
  { t with state := .stopped, position := 0, inject := false, stopRequested := false }

/-- R166: the new settings leave the payload generator as those they replace do: no difference in lfsr_length, in lfsr_tap or in the
seed, whose bits at n and above are ignored (R164; log 33). -/
def TestSettings.sameGenerator (new old : TestSettings) : Bool :=
  new.lfsrLength == old.lfsrLength && new.lfsrTap == old.lfsrTap
    && lfsrLoad new.lfsrLength new.seed == lfsrLoad old.lfsrLength old.seed

/-- R166: the pending settings are applied while RUNNING, over those they replace. -/
def TestSource.applyOver (t : TestSource) (new old : TestSettings) : TestSource :=
  { t with
    settings := some new
    waiting := none
    lfsr := if new.sameGenerator old then t.lfsr else lfsrLoad new.lfsrLength new.seed
    errorCount := if new.errorExponent = old.errorExponent then t.errorCount else 0
    corruptionCount := if new.corruptPeriod = old.corruptPeriod then t.corruptionCount else 0 }

/-- R166, R172: the last bit of a frame has been emitted under settings. -/
def TestSource.endFrame (t : TestSource) (old : TestSettings) : TestSource :=
  match t.waiting with
  | none => if t.stopRequested then t.stop else t.startFrame old
  | some new =>
    if t.stopRequested ∨ new.run = 0 then (t.applyOver new old).stop else (t.applyOver new old).startFrame new

/-- R170: the error count reaches 10^k at the next payload bit. -/
def TestSource.rateDue (t : TestSource) (p : TestSettings) : Bool :=
  p.errorExponent ≠ 0 && t.errorCount + 1 = 10 ^ p.errorExponent

/-- R169 to R171: the bit emitted next. -/
def TestSource.nextBit (t : TestSource) (p : TestSettings) : Bool :=
  if t.position < p.syncLength then
    p.syncPattern.getLsbD (p.syncLength - 1 - t.position) != (t.corrupted && t.position < p.corruptBits)
  else lfsrFeedback p.lfsrLength p.lfsrTap t.lfsr != (t.rateDue p || t.inject)

/-- R169, R170: the source once its next bit has been emitted, before what the end of a frame brings. -/
def TestSource.emitted (t : TestSource) (p : TestSettings) : TestSource :=
  if t.position < p.syncLength then { t with position := t.position + 1 }
  else
    { t with
      position := t.position + 1
      lfsr := lfsrStep p.lfsrLength p.lfsrTap t.lfsr
      errorCount := if p.errorExponent = 0 then t.errorCount else if t.rateDue p then 0 else t.errorCount + 1
      inject := false }

/-- The next bit is the last of its frame. -/
def TestSource.lastBit (t : TestSource) (p : TestSettings) : Bool := t.position + 1 == p.frameLength

/-- The source after one bit clock. -/
def TestSource.tick (t : TestSource) (p : TestSettings) : TestSource :=
  if t.lastBit p then (t.emitted p).endFrame p else t.emitted p

/-- R32, R43: every channel that selects TEST receives the bit, CH0 to CH7. -/
def State.deliverTestBit (s : State) (bit : Bool) : State :=
  s.forChans fun ch t => if (t.chan ch).prog.input = .test then t.bitClock ch bit else t

/-- R160, R168: the settings under which the source emits, none when it is not emitting. -/
def State.emitting (s : State) : Option TestSettings :=
  if s.device.takesEvents ∧ s.test.state = .running then s.test.settings else none

/-- R168: one bit clock of the Test Source. -/
def State.testBitClock (s : State) : State :=
  match s.emitting with
  | none => s
  | some p =>
    let t := s.deliverTestBit (s.test.nextBit p)
    let u := t.modTest (·.tick p)
    if u.test.state = s.test.state then u else u.testStatusChanged

/-! ## Settings (R162 to R166) -/

/-- R162: a test generation is new. -/
def TestSource.isNew (t : TestSource) (generation : Word) : Bool :=
  generation != 0 && generation != t.adopted && generation != t.rejected
    && t.waiting.all (·.generation != generation)

/-- R165: a generation is refused. -/
def State.rejectTest (s : State) (generation : Word) (reason : TestReject) : State :=
  ((s.modTest fun t => { t with rejected := generation, rejectReason := reason }).testStatusChanged).hand none
    (.testSource .rejected generation reason)

/-- R161, R162: a sample read completes with OKAY. -/
def State.sampleDone (s : State) (pointer : Dword) (generation : Word) : State :=
  if s.device = .running ∧ s.test.isNew generation = true ∧ s.test.fetch = none then
    if addressUsable pointer 8 then
      (s.modTest fun t => { t with fetch := some ⟨generation, pointer⟩ }).request .blockFetch
    else s.rejectTest generation .address
  else s

/-- R166: valid settings reach the source. -/
def TestSource.take (t : TestSource) (p : TestSettings) : TestSource :=
  match t.state with
  | .running => { t with waiting := some p }
  | .stopped => if p.run = 1 then { t with settings := some p }.enterRunning p else { t with settings := some p }

/-- R166: valid settings are adopted. -/
def State.adoptTest (s : State) (p : TestSettings) : State :=
  ((s.modTest fun t => { t.take p with adopted := p.generation }).testStatusChanged).hand none
    (.testSource .adopted p.generation .none)

/-- R163: a block is torn. -/
def BlockFetch.torn (f : BlockFetch) (bytes : List Byte) : Bool :=
  !(wordAt bytes 0 == f.generation && blockTail bytes == f.generation)

/-- R163, R164: a whole block is judged. -/
def State.judgeBlock (s : State) (p : TestSettings) : State :=
  if p.validate = .none then s.adoptTest p else s.rejectTest p.generation p.validate

/-- R163: the block fetch completes, with the block (OKAY) or without (ERROR). -/
def State.blockFetched (s : State) (bytes : Option (List Byte)) : State :=
  match s.test.fetch with
  | none => s
  | some f =>
    let t := s.modTest fun u => { u with fetch := none }
    if s.device = .running then
      match bytes with
      | none => t.rejectTest f.generation .fetchError
      | some b =>
        if f.torn b then t.hand none (.testSource .torn f.generation .none) else t.judgeBlock (TestSettings.parse b)
    else t

/-- R172: a drain asks the source to stop; one that is STOPPED stays so. -/
def State.drainTest (s : State) : State :=
  s.modTest fun t => if t.state = .running then { t with stopRequested := true } else t

/-- R170: a single inject is asked for. -/
def State.injectTest (s : State) : State :=
  s.modTest fun t => if t.state = .running then { t with inject := true } else t

end Sys2Proof.Machine
end

