-- ==== Sys2Proof/Machine/Device.lean ====
section
/-! DEFINITION. Device Control (11): the device states, the idle poll, the STRT line, NUDGE, CTRL and resets. -/

namespace Sys2Proof.Machine

/-! ## STARTING and RUNNING (R187 to R189) -/

/-- R184: the arbiter at entry to STARTING: a transaction in flight goes on, but its result is nobody's. -/
def Port.atStarting (p : Port) : Port :=
  { Port.reset with inFlight := p.inFlight.map fun t => { t with orphan := true }, timer := p.timer }

/-- R70, R187: entry to STARTING. -/
def State.enterStarting (s : State) : State :=
  { s with
    device := .starting
    faultCode := .none
    sessionBase := s.regs.cpbase
    idlePoll := none
    chans := PerChannel.all Channel.reset
    events := .reset
    test := .reset
    port := s.port.atStarting
    frozen := .none }.request .headerRead

/-- R135: the Event Unit's marks at the start of a session. -/
def EventUnit.startSession (e : EventUnit) (release : Word) : EventUnit :=
  { e with writeMark := release, acceptedRelease := release, published := release, noticed := release }

/-- R34: the monitor begins evaluating. -/
def Monitor.begin : Monitor := { Monitor.reset with evaluating := true, gap := some 0 }

/-- R191, R192, R194: the device state is reported in the journal and in the mirror. -/
def State.announce (s : State) : State := (s.hand none (.deviceState s.device)).request .mirrorWrite

/-- R68, R87: a channel at entry to DRAINING: its pending program is dropped, and framing stops. -/
def State.drainChannel (s : State) (ch : Chan) : State :=
  let t := s.modProg ch fun p => { p with held := none }
  let state := (s.chan ch).prog.runState
  if state = .armed ∨ state = .running then t.haltChannel ch .drain else t

/-- The device takes a state, which is reported (R189, R191, R192). -/
def State.enterState (s : State) (d : DeviceState) : State := { s with device := d }.announce

/-- R190: the idle-poll timer stops. -/
def State.stopPoll (s : State) : State := { s with idlePoll := none }

/-- R191: entry to DRAINING, up to the test of its end. -/
def State.enterDraining (s : State) : State :=
  ((s.stopPoll.enterState .draining).forChans fun ch t => t.drainChannel ch).drainTest

/-- R189: entry to RUNNING, up to the look at CTRL.RUN. -/
def State.enterRunning (s : State) : State :=
  ((((s.enterState .running).request .journalMark).forChans fun ch t => t.modMonitor ch fun _ => .begin).forChans
    fun ch t => t.sampleSlot ch).sampleTest

/-- R189, R190: the idle-poll timer starts. -/
def State.startPoll (s : State) : State := { s with idlePoll := some 0 }

/-! ## The end of a drain (R192) -/

/-- The writeback of every channel is settled. -/
def State.allSettled (s : State) : Bool := allChans.all s.settled

/-- R186, R192: entry to STOPPED, and to STARTING at once if CTRL.RUN is 1. -/
def State.enterStopped (s : State) : State :=
  let t := ((s.enterState .stopped).raise .drained).forChans fun ch t =>
    t.modMonitor ch fun m => { m with evaluating := false }
  if t.regs.run then t.enterStarting else t

/-- R192: the drain ends at the first moment at which every channel is settled. -/
def State.drainCheck (s : State) : State :=
  if s.device = .draining ∧ s.allSettled = true then s.enterStopped else s

/-- R60, R85: a program held for a run start applies once its channel is settled. -/
def State.settleChannel (s : State) (ch : Chan) : State :=
  let p := (s.chan ch).prog
  if s.device = .running ∧ (p.runState = .halted ∨ p.runState = .failed) ∧ s.settled ch = true then s.takeHeld ch
  else s

/-- What becomes due once writeback is settled: held run starts and the end of a drain (log 3). -/
def State.settle (s : State) : State := (s.forChans fun ch t => t.settleChannel ch).drainCheck

/-! ## FAULTED (R193) -/

/-- R29, R34, R110, R113: a channel at entry to FAULTED; its other items stay as they are. -/
def Channel.freeze (c : Channel) : Channel :=
  { c.discard with
    sync := c.sync.toOff
    monitor := { c.monitor with evaluating := false }
    wb := { c.discard.wb with holdoff := none } }

/-- R184: the arbiter at entry to FAULTED. -/
def Port.atFaulted (p : Port) : Port :=
  { p with
    classA := [], classB := [], classC := PerChannel.all false, arrivals := [], inFlight := none, timer := none }

/-- R193: entry to FAULTED. The port is emptied (R184), and what the blocks had outstanding freezes with them (R70, R135, R152,
R160; log 34). -/
def State.enterFaulted (s : State) (code : FaultCode) : State :=
  let t := s.spoilInFlight
  { t with
    device := .faulted
    faultCode := code
    idlePoll := none
    chans := t.chans.map Channel.freeze
    events := { t.events with holdoff := none }
    port := t.port.atFaulted
    frozen := t.port.toFreeze }.raise .fault

/-! ## CTRL.RUN and the header (R186, R188) -/

/-- R186: the device follows CTRL.RUN. -/
def State.followRun (s : State) : State :=
  match s.device, s.regs.run with
  | .dormant, true | .stopped, true => s.enterStarting
  | .running, false => s.enterDraining.drainCheck
  | _, _ => s

/-- R135, R188: a valid header gives the session parameters and the journal marks. -/
def State.startSession (s : State) (h : Header) : State :=
  { s with params := h.params, events := s.events.startSession h.journalRelease }

/-- R187 to R189: the header read that STARTING waits for completes with OKAY. -/
def State.headerDone (s : State) (bytes : List Byte) : State :=
  let h := Header.parse bytes
  if s.device = .starting then
    if h.valid then (s.startSession h).enterRunning.startPoll.followRun else s.enterFaulted .badHeader
  else s

/-! ## Idle poll, STRT and NUDGE -/

/-- R72: a channel at an idle-poll expiry. -/
def State.pollChannel (s : State) (ch : Chan) : State := if (s.chan ch).polled then s.sampleSlot ch else s

/-- R190: an idle-poll expiry. -/
def State.idlePollExpired (s : State) : State :=
  ((s.startPoll.forChans fun ch t => t.pollChannel ch).requestRead .journalReRead).sampleTest

/-- R200, R201: a STRT edge zeroes the timebase when TIMEBASE_ON_STRT is set for the session. -/
def State.strtTimebase (s : State) : State := { s with timebase := if s.params.timebaseOnStrt then 0 else s.timebase }

/-- R62, R201: an ARMED channel at a STRT edge. -/
def State.strtChannel (s : State) (ch : Chan) : State :=
  if (s.chan ch).prog.runState = .armed then s.startFraming ch .strt else s

/-- R201: a STRT edge: START_EDGE, then the timebase, then the ARMED channels. The order of the channels is the model's choice: CH0
to CH7 (log 32). -/
def State.strtEdge (s : State) : State :=
  if s.device = .running then ((s.hand none .startEdge).strtTimebase).forChans fun ch t => t.strtChannel ch else s

/-- R73: a channel whose bit is set in a NUDGE write samples its slot. -/
def State.nudgeChannel (s : State) (channels : Byte) (ch : Chan) : State :=
  if channels.getLsbD (chanNumber ch) then s.sampleSlot ch else s

/-- R197: a NUDGE write: bit n of `channels` for channel n, and bits 8, 9 and 10. All of them act together; that their requests are
made in this order, CH0 to CH7 first, is the model's choice (log 32). -/
def State.nudge (s : State) (channels : Byte) (journal test inject : Bool) : State :=
  if s.device = .running then
    let t := s.forChans fun ch u => u.nudgeChannel channels ch
    let u := if journal then t.requestRead .journalReRead else t
    let v := if test then u.sampleTest else u
    if inject then v.injectTest else v
  else s

/-! ## CTRL and resets (R196, R202) -/

/-- R196: a CTRL write stores RUN and IRQEN. -/
def State.setCtrl (s : State) (run irqen : Bool) : State := { s with regs := { s.regs with run := run, irqen := irqen } }

/-- R186, R196: a CTRL write without SRST. -/
def State.writeCtrl (s : State) (run irqen : Bool) : State :=
  (s.setCtrl run irqen).followRun

/-- R202: the reset condition, with the commands that wait and the image of memory kept; a write in flight is abandoned. -/
def State.fullReset (s : State) (held : Bool) : State :=
  let t := s.spoilInFlight
  { State.reset with pending := s.pending, resetHeld := held, mem := t.mem, freeCount := t.freeCount }

/-- R202: a soft reset keeps CPBASE and IRQ_MASK. -/
def State.softReset (s : State) : State :=
  let t := s.fullReset s.resetHeld
  { t with
    regs := { t.regs with cpbaseLo := s.regs.cpbaseLo, cpbaseHi := s.regs.cpbaseHi, irqMask := s.regs.irqMask } }

/-- R196: CPBASE is written in DORMANT, STOPPED and FAULTED only. -/
def DeviceState.cpbaseWritable : DeviceState → Bool
  | .dormant | .stopped | .faulted => true
  | .starting | .running | .draining => false

/-- R196: a four-byte write to CTRL. -/
def State.writeCtrlWord (s : State) (value : Word) : State :=
  if value.getLsbD 1 then s.softReset else s.writeCtrl (value.getLsbD 0) (value.getLsbD 2)

/-- R198: a write to IRQ_PEND clears the bits written as 1. -/
def State.writeIrqPend (s : State) (value : Word) : State :=
  { s with regs := { s.regs with irqPend := s.regs.irqPend &&& ~~~(value.setWidth 11) } }

/-- R199: a write to IRQ_MASK. -/
def State.writeIrqMask (s : State) (value : Word) : State :=
  { s with regs := { s.regs with irqMask := value.setWidth 11 } }

/-- R195, R196: a write to CPBASE_LO; bits 11:0 read 0. -/
def State.writeCpbaseLo (s : State) (value : Word) : State :=
  if s.device.cpbaseWritable then { s with regs := { s.regs with cpbaseLo := value &&& 0xFFFFF000 } } else s

/-- R195, R196: a write to CPBASE_HI; bits 31:16 read 0. -/
def State.writeCpbaseHi (s : State) (value : Word) : State :=
  if s.device.cpbaseWritable then { s with regs := { s.regs with cpbaseHi := value &&& 0xFFFF } } else s

/-- R195 to R199: a four-byte write to a register. -/
def State.writeRegister (s : State) (reg : Register) (value : Word) : State :=
  match reg with
  | .id | .state => s
  | .ctrl => s.writeCtrlWord value
  | .cpbaseLo => s.writeCpbaseLo value
  | .cpbaseHi => s.writeCpbaseHi value
  | .nudge => s.nudge (value.setWidth 8) (value.getLsbD 8) (value.getLsbD 9) (value.getLsbD 10)
  | .irqPend => s.writeIrqPend value
  | .irqMask => s.writeIrqMask value

end Sys2Proof.Machine
end

