-- ==== Sys2Proof/Machine/Completion.lean ====
section
/-! DEFINITION. The end of a transaction: its result reaches the block that asked for it, and the port is free for the next
grant (10 sections 10.4, 10.5). -/

namespace Sys2Proof.Machine

/-! ## Results -/

/-- R75: a slot read completes with OKAY. -/
def State.slotReadDone (s : State) (ch : Chan) (w : SlotWords) : State :=
  let t := (((s.modProg ch fun p =>
      { p with latestAreaBase := w.areaBase, latestAreaSize := w.areaSize, latestRelease := w.release }).offerRelease ch
    w.release).offerStats ch w.statsRequest w.statsClear)
  if s.device = .running then t.examine ch w.generation w.pointer else t

/-- R182: what a request that ended with ERROR faults the device with; none where its requester has another answer. -/
def Request.faultCode : Request → FaultCode
  | .slotRead _ | .generationWrite _ | .statusWrite _ | .markWrite _ | .servedWrite _ => .slotAccess
  | .headerRead | .testSample | .testStatus | .journalMark | .mirrorWrite => .headerAccess
  | .journalRecord => .journalAccess
  | .recordBurst _ | .fetchFixed _ | .fetchTail _ | .blockFetch | .blockWrite _ | .reRead _ | .journalReRead => .none

/-- R182, R183: a transaction ended with ERROR or a timeout. -/
def State.failed (s : State) (t : Transaction) : State :=
  match t.request with
  | .recordBurst ch => s.burstFailed ch t.address
  | .fetchFixed ch => s.fetchFailed ch
  | .fetchTail ch => s.fetchFailed ch
  | .blockFetch => s.blockFetched none
  | .blockWrite ch => s.blockFailed ch
  | .reRead ch => s.reReadDone ch none
  | .journalReRead => s.journalReReadDone none
  | r => s.enterFaulted r.faultCode

/-- R174: a transaction completed with OKAY; `bytes` are those a read brought. -/
def State.succeeded (s : State) (t : Transaction) (bytes : List Byte) : State :=
  match t.request with
  | .headerRead => s.headerDone bytes
  | .mirrorWrite => s
  | .slotRead ch => s.slotReadDone ch (SlotWords.parse bytes)
  | .fetchFixed ch => s.fixedDone ch bytes
  | .fetchTail ch => s.tailDone ch bytes
  | .generationWrite _ => s
  | .statusWrite _ => s
  | .reRead ch => s.reReadDone ch (some (wordAt bytes 0))
  | .recordBurst ch => s.burstDone ch
  | .markWrite ch => s.markDone ch (wordAt t.data 0)
  | .journalRecord => s.journalRecordDone
  | .journalReRead => s.journalReReadDone (some (wordAt bytes 0))
  | .journalMark => s.journalMarkDone (wordAt t.data 0)
  | .blockWrite ch => s.blockDone ch
  | .servedWrite _ => s
  | .testSample => s.sampleDone (testSampleWords bytes).1 (testSampleWords bytes).2
  | .blockFetch => s.blockFetched (some bytes)
  | .testStatus => s

/-- R180, R184: the result is handed to the requester, unless STARTING has disowned the transaction. -/
def State.deliver (s : State) (t : Transaction) (r : ReadResponse) : State :=
  if t.orphan then s
  else match r with
    | .okay bytes => s.succeeded t bytes
    | .error => s.failed t

/-- R174: what becomes of the bytes of a write. -/
def State.bytesWritten (s : State) (t : Transaction) (r : ReadResponse) : State :=
  match r with
  | .okay _ => s.placeBytes t
  | .error => s.spoilBytes t

/-- R180: the timer stops and no transaction is in flight. -/
def State.freePort (s : State) : State := { s with port := { s.port with inFlight := none, timer := none } }

/-- R180: the transaction in flight completes with a response: its bytes, its result, what becomes due once writeback is
settled (log 3), and the next grant. -/
def State.complete (s : State) (t : Transaction) (r : ReadResponse) : State :=
  (((s.freePort.bytesWritten t r).deliver t r).settle).regrant

/-! ## Responses as commands -/

/-- R174: an OKAY response to a read brings exactly the bytes asked for. -/
def Transaction.fits (t : Transaction) : ReadResponse → Bool
  | .okay bytes => t.request.isWrite || bytes.length == t.length
  | .error => true

/-- A write's response. -/
def WriteResponse.toRead : WriteResponse → ReadResponse
  | .okay => .okay []
  | .error => .error

/-- R180, R181: a response to the request's transaction; one that is not in flight is answered late and ignored. -/
def State.respond (s : State) (request : Request) (r : ReadResponse) : Host.Outcome State Fault Refusal :=
  match s.port.inFlight with
  | none => .next s
  | some t =>
    if t.request = request ∧ s.resetHeld = false then
      if t.fits r then .next (s.complete t r) else .fault .malformedResponse
    else .next s

/-- R180: the response timer reaches its end. -/
def State.timeOut (s : State) : State :=
  match s.port.inFlight with
  | none => s
  | some t => s.complete t .error

end Sys2Proof.Machine
end

