-- ==== Sys2Proof/Machine/Timers.lean ====
section
/-! DEFINITION. The timers, counted in ticks of the timebase (R200; log 6). -/

namespace Sys2Proof.Machine

/-! ## Counting -/

/-- R37: one tick of a gap timer, which runs while its monitor evaluates. -/
def Monitor.tick (m : Monitor) : Monitor := if m.evaluating then { m with gap := m.gap.map (· + 1) } else m

/-- R37, R130: one tick of a channel's timers. -/
def Channel.tick (c : Channel) : Channel :=
  { c with monitor := c.monitor.tick, wb := { c.wb with holdoff := c.wb.holdoff.map (· + 1) } }

/-- R200: the timebase rises by one and saturates, and every running timer counts the tick. -/
def State.countTick (s : State) : State :=
  { s with
    timebase := saturate s.timebase 1
    chans := s.chans.map Channel.tick
    events := { s.events with holdoff := s.events.holdoff.map (· + 1) }
    idlePoll := s.idlePoll.map (· + 1)
    port := { s.port with timer := s.port.timer.map (· + 1) } }

/-! ## Timers that have reached their value -/

/-- R130, R147: a holdoff timer has reached holdoff_us. -/
def State.holdoffReached (s : State) (holdoff : Option Nat) : Bool :=
  holdoff.any (ticksOfUs s.params.holdoffUs.toNat ≤ ·)

/-- R190: the idle-poll timer has reached its period. -/
def State.idlePollReached (s : State) : Bool := s.idlePoll.any (ticksOfMs s.params.idlePollMs.toNat ≤ ·)

/-- R180: 650 µs in ticks. -/
def responseTicks : Nat := ticksOfUs 650

/-- R180: the response timer has reached its end. -/
def State.responseReached (s : State) : Bool := s.port.timer.any (responseTicks ≤ ·)

/-- The expiries of a tick that has been counted, in the order of log 6: gap timers (R37), holdoff timers (R130, R147), the idle
poll (R190) and the response timer (R180). Which timers have reached their value is read once, before the first expiry. -/
def State.expire (s : State) : State :=
  let t := s.forChans fun ch u => if (s.chan ch).gapReached then u.gapExpired ch else u
  let t := t.forChans fun ch u => if s.holdoffReached (s.chan ch).wb.holdoff then u.captureNotice ch else u
  let t := if s.holdoffReached s.events.holdoff then t.journalNotice else t
  let t := if s.idlePollReached then t.idlePollExpired else t
  if s.responseReached then t.timeOut else t

/-- R200: one tick is counted, the timers that reach their value expire, and what they request arrives at the port. -/
def State.tick (s : State) : State := s.countTick.expire.arbitrate

end Sys2Proof.Machine
end

