-- ==== Sys2Proof/Machine/RegisterRows.lean ====
section
/-! DEFINITION. Resets, register writes, NUDGE and STRT. -/

namespace Sys2Proof.Machine

/-- R202: while RSTN is low every command but RSTN itself is without effect. -/
def State.live (s : State) (f : State → State) : Host.Outcome State Fault Refusal :=
  .next (if s.resetHeld then s else f s)

/-- FULL_RESET (R202). -/
def execFullReset (phase : RstnPhase) (s : State) : Host.Outcome State Fault Refusal :=
  .next (s.fullReset (phase = .held))

/-- SOFT_RESET (R202): the RUN and IRQEN of the same write are discarded (R196). -/
def execSoftReset (_run _irqen : Bool) (s : State) : Host.Outcome State Fault Refusal := s.live State.softReset

/-- CTRL_RUN (R186, R196). -/
def execCtrlRun (run : Bool) (s : State) : Host.Outcome State Fault Refusal :=
  s.live fun t => (t.writeCtrl run t.regs.irqen).arbitrate

/-- CTRL_IRQEN (R196, R199). -/
def execCtrlIrqen (irqen : Bool) (s : State) : Host.Outcome State Fault Refusal :=
  s.live fun t => (t.writeCtrl t.regs.run irqen).arbitrate

/-- R196: the register that a write covers whole: one in all four byte lanes, at the register's own offset. Any other write of at
most four bytes covers only some bytes of one register, or of two; a wider one is no command of its own, which is the model's choice
(log 36). -/
def registerCovered (offset : Nat) (lanes : BitVec 4) : Option Register :=
  if lanes = 0xF ∧ offset % 4 = 0 then registerAt offset else none

/-- R196: a write in the byte lanes set in `lanes`, at an offset of the window, takes effect on the register it covers whole, and is
ignored where it covers none. -/
def State.writeWindow (s : State) (offset : Nat) (lanes : BitVec 4) (value : Word) : State :=
  match registerCovered offset lanes with
  | none => s
  | some reg => s.writeRegister reg value

/-- REGISTER_WRITE (R196). -/
def execRegisterWrite (offset : Nat) (lanes : BitVec 4) (value : Word) (s : State) :
    Host.Outcome State Fault Refusal :=
  s.live fun t => (t.writeWindow offset lanes value).arbitrate

/-- IRQ_PEND_WRITE (R198). -/
def execIrqPendWrite (value : Word) (s : State) : Host.Outcome State Fault Refusal :=
  s.live fun t => t.writeIrqPend value

/-- IRQ_MASK_WRITE (R199). -/
def execIrqMaskWrite (value : Word) (s : State) : Host.Outcome State Fault Refusal :=
  s.live fun t => t.writeIrqMask value

/-- NUDGE_SLOT_SAMPLE (R73). -/
def execNudgeSlotSample (channels : Byte) (s : State) : Host.Outcome State Fault Refusal :=
  s.live fun t => (t.nudge channels false false false).arbitrate

/-- NUDGE_JOURNAL_REREAD (R138). -/
def execNudgeJournalReread (s : State) : Host.Outcome State Fault Refusal :=
  s.live fun t => (t.nudge 0 true false false).arbitrate

/-- NUDGE_TEST_SAMPLE (R161). -/
def execNudgeTestSample (s : State) : Host.Outcome State Fault Refusal :=
  s.live fun t => (t.nudge 0 false true false).arbitrate

/-- NUDGE_TEST_INJECT (R170). -/
def execNudgeTestInject (s : State) : Host.Outcome State Fault Refusal :=
  s.live fun t => t.nudge 0 false false true

/-- STRT_RISING_EDGE (R201). -/
def execStrtRisingEdge (s : State) : Host.Outcome State Fault Refusal := s.live fun t => t.strtEdge.arbitrate

end Sys2Proof.Machine
end

