-- ==== Sys2Proof/Machine/LineRows.lean ====
section
/-! DEFINITION. Bit clocks of the LINE inputs, and the bit clocks at which a decision or a change of activity comes about
(log 2). -/

namespace Sys2Proof.Machine

/-- R32: a rising edge of CHnCLK; the pins of an unselected input are ignored (R31). -/
def State.lineBit (s : State) (ch : Chan) (bit : Bool) : State :=
  if (s.chan ch).prog.input = .line then (s.bitClock ch bit).arbitrate else s

/-- The next line bit clock reaches the monitor (R31, R34). -/
def Channel.listening (c : Channel) : Bool := c.prog.input = .line && c.monitor.evaluating

/-- The next line bit is delivered to the synchronizer (R33). -/
def Channel.delivers (c : Channel) : Bool := c.listening && c.monitor.state != .noclock

/-- The next bit is at the exact expected position, and no decision is held open (R5). -/
def Channel.atExact (c : Channel) : Bool :=
  c.prog.settings.any (fun r => c.sync.position + 1 == r.frameLength) && c.sync.heldOpen.isNone

/-- The next bit is at the late position of a decision held open (R12). -/
def Channel.atLate (c : Channel) : Bool :=
  c.prog.settings.any (fun r => c.sync.position == r.frameLength) && c.sync.heldOpen.isSome

/-- A bit clock at which what the command names comes about. -/
def State.dueBit (s : State) (due : Channel → Bool) (ch : Chan) (bit : Bool) : Host.Outcome State Fault Refusal :=
  s.live fun t => if due (t.chan ch) then t.lineBit ch bit else t

/-- R9. -/
def Channel.checkDue (c : Channel) : Bool := c.delivers && c.sync.state == .check && c.atExact

/-- R11. -/
def Channel.lockDue (c : Channel) : Bool := c.delivers && c.sync.framing && c.atExact

/-- R12. -/
def Channel.lateDue (c : Channel) : Bool := c.delivers && c.sync.framing && c.atLate

/-- R35. -/
def Channel.quietDue (bit : Bool) (c : Channel) : Bool :=
  c.listening && c.monitor.state == .active && c.monitor.nextQuietRun bit == 4096

/-- R36. -/
def Channel.activeDue (bit : Bool) (c : Channel) : Bool :=
  c.listening && c.monitor.state == .quiet && c.monitor.nextTransitions bit == 64

/-- R36. -/
def Channel.windowEndDue (bit : Bool) (c : Channel) : Bool :=
  c.listening && c.monitor.state == .quiet && c.monitor.nextTransitions bit != 64 && c.monitor.windowPosition + 1 == 512

/-- R39. -/
def Channel.recoveryDue (c : Channel) : Bool :=
  c.listening && c.monitor.state == .noclock && c.monitor.nextRecovery c.prog.timeoutTicks == 256

/-- BIT_CLOCK (R32). -/
def execBitClock (ch : Chan) (bit : Bool) (s : State) : Host.Outcome State Fault Refusal :=
  s.live fun t => t.lineBit ch bit

/-- CHECK_DECISION (R9). -/
def execCheckDecision (ch : Chan) (bit : Bool) (s : State) : Host.Outcome State Fault Refusal :=
  s.dueBit Channel.checkDue ch bit

/-- LOCK_DECISION (R11). -/
def execLockDecision (ch : Chan) (bit : Bool) (s : State) : Host.Outcome State Fault Refusal :=
  s.dueBit Channel.lockDue ch bit

/-- LATE_POSITION_DECISION (R12). -/
def execLatePositionDecision (ch : Chan) (bit : Bool) (s : State) : Host.Outcome State Fault Refusal :=
  s.dueBit Channel.lateDue ch bit

/-- QUIET_ENTRY (R35). -/
def execQuietEntry (ch : Chan) (bit : Bool) (s : State) : Host.Outcome State Fault Refusal :=
  s.dueBit (Channel.quietDue bit) ch bit

/-- ACTIVE_ENTRY (R36). -/
def execActiveEntry (ch : Chan) (bit : Bool) (s : State) : Host.Outcome State Fault Refusal :=
  s.dueBit (Channel.activeDue bit) ch bit

/-- QUIET_WINDOW_END (R36). -/
def execQuietWindowEnd (ch : Chan) (bit : Bool) (s : State) : Host.Outcome State Fault Refusal :=
  s.dueBit (Channel.windowEndDue bit) ch bit

/-- NOCLOCK_RECOVERY (R39). -/
def execNoclockRecovery (ch : Chan) (bit : Bool) (s : State) : Host.Outcome State Fault Refusal :=
  s.dueBit Channel.recoveryDue ch bit

end Sys2Proof.Machine
end

