-- ==== Sys2Proof/Machine/TimerRows.lean ====
section
/-! DEFINITION. The expiries of the timers, the tick, and the moments of settled writeback (log 3, log 6, log 7). -/

namespace Sys2Proof.Machine

/-- The gap timer can expire: the monitor evaluates and is not in NOCLOCK (R37). -/
def Channel.gapRunning (c : Channel) : Bool := c.monitor.evaluating && c.monitor.state != .noclock

/-- GAP_TIMER_EXPIRY (R37). -/
def execGapTimerExpiry (ch : Chan) (s : State) : Host.Outcome State Fault Refusal :=
  s.live fun t => if (t.chan ch).gapRunning then (t.gapExpired ch).arbitrate else t

/-- IDLE_POLL_EXPIRY (R190). -/
def execIdlePollExpiry (s : State) : Host.Outcome State Fault Refusal :=
  s.live fun t => if t.idlePoll.isSome then t.idlePollExpired.arbitrate else t

/-- CAPTURE_HOLDOFF_EXPIRY (R130). -/
def execCaptureHoldoffExpiry (ch : Chan) (s : State) : Host.Outcome State Fault Refusal :=
  s.live fun t => if (t.chan ch).wb.holdoff.isSome then t.captureNotice ch else t

/-- JOURNAL_HOLDOFF_EXPIRY (R147). -/
def execJournalHoldoffExpiry (s : State) : Host.Outcome State Fault Refusal :=
  s.live fun t => if t.events.holdoff.isSome then t.journalNotice else t

/-- RESPONSE_TIMEOUT (R180). -/
def execResponseTimeout (s : State) : Host.Outcome State Fault Refusal := s.live State.timeOut

/-- DRAIN_END (R192). -/
def execDrainEnd (s : State) : Host.Outcome State Fault Refusal :=
  s.live fun t => if t.device = .draining ∧ t.allSettled = true then t.enterStopped.arbitrate else t

/-- A run start held for settled writeback is due (R60, R85). -/
def State.heldRunDue (s : State) (ch : Chan) : Bool :=
  let p := (s.chan ch).prog
  s.device == .running && (p.runState == .halted || p.runState == .failed) && p.held.isSome && s.settled ch

/-- WRITEBACK_SETTLED (R60). -/
def execWritebackSettled (ch : Chan) (s : State) : Host.Outcome State Fault Refusal :=
  s.live fun t => if t.heldRunDue ch then (t.takeHeld ch).arbitrate else t

/-- TIMEBASE_TICK (R200). -/
def execTimebaseTick (s : State) : Host.Outcome State Fault Refusal := s.live State.tick

end Sys2Proof.Machine
end

