-- ==== Sys2Proof/Machine/BusRows.lean ====
section
/-! DEFINITION. The responses of the system bus. -/

namespace Sys2Proof.Machine

/-- LATE_RESPONSE (R181). -/
def execLateResponse (_r : ReadResponse) (s : State) : Host.Outcome State Fault Refusal := .next s

/-- HEADER_READ_COMPLETE (R187, R188). -/
def execHeaderReadComplete (r : ReadResponse) (s : State) : Host.Outcome State Fault Refusal := s.respond .headerRead r

/-- MIRROR_WRITE_COMPLETE (R194). -/
def execMirrorWriteComplete (r : WriteResponse) (s : State) : Host.Outcome State Fault Refusal :=
  s.respond .mirrorWrite (WriteResponse.toRead r)

/-- SLOT_READ_COMPLETE (R75). -/
def execSlotReadComplete (ch : Chan) (r : ReadResponse) (s : State) : Host.Outcome State Fault Refusal :=
  s.respond (.slotRead ch) r

/-- PROGRAM_FETCH_FIXED_COMPLETE (R77). -/
def execProgramFetchFixedComplete (ch : Chan) (r : ReadResponse) (s : State) : Host.Outcome State Fault Refusal :=
  s.respond (.fetchFixed ch) r

/-- PROGRAM_FETCH_TAIL_COMPLETE (R78). -/
def execProgramFetchTailComplete (ch : Chan) (r : ReadResponse) (s : State) : Host.Outcome State Fault Refusal :=
  s.respond (.fetchTail ch) r

/-- R79: this second read brings the fourth torn fetch in a row. -/
def State.tornDue (s : State) (ch : Chan) : ReadResponse → Bool
  | .error => false
  | .okay bytes =>
    s.device == .running && (s.chan ch).prog.tornCount == 3
      && (s.chan ch).prog.fetch.any fun f => f.fixedPart.any fun p => f.torn p bytes

/-- PROGRAM_TORN (R79; log 2). -/
def execProgramTorn (ch : Chan) (r : ReadResponse) (s : State) : Host.Outcome State Fault Refusal :=
  if s.tornDue ch r then s.respond (.fetchTail ch) r else .next s

/-- GENERATION_WRITE_COMPLETE (R90). -/
def execGenerationWriteComplete (ch : Chan) (r : WriteResponse) (s : State) : Host.Outcome State Fault Refusal :=
  s.respond (.generationWrite ch) (WriteResponse.toRead r)

/-- STATUS_WRITE_COMPLETE (R30). -/
def execStatusWriteComplete (ch : Chan) (r : WriteResponse) (s : State) : Host.Outcome State Fault Refusal :=
  s.respond (.statusWrite ch) (WriteResponse.toRead r)

/-- RE_READ_COMPLETE (R117). -/
def execReReadComplete (ch : Chan) (r : ReadResponse) (s : State) : Host.Outcome State Fault Refusal :=
  s.respond (.reRead ch) r

/-- RECORD_BURST_COMPLETE (R123). -/
def execRecordBurstComplete (ch : Chan) (r : WriteResponse) (s : State) : Host.Outcome State Fault Refusal :=
  s.respond (.recordBurst ch) (WriteResponse.toRead r)

/-- MARK_WRITE_COMPLETE (R128). -/
def execMarkWriteComplete (ch : Chan) (r : WriteResponse) (s : State) : Host.Outcome State Fault Refusal :=
  s.respond (.markWrite ch) (WriteResponse.toRead r)

/-- JOURNAL_RECORD_WRITE_COMPLETE (R143). -/
def execJournalRecordWriteComplete (r : WriteResponse) (s : State) : Host.Outcome State Fault Refusal :=
  s.respond .journalRecord (WriteResponse.toRead r)

/-- JOURNAL_RE_READ_COMPLETE (R138). -/
def execJournalReReadComplete (r : ReadResponse) (s : State) : Host.Outcome State Fault Refusal :=
  s.respond .journalReRead r

/-- JOURNAL_MARK_WRITE_COMPLETE (R145). -/
def execJournalMarkWriteComplete (r : WriteResponse) (s : State) : Host.Outcome State Fault Refusal :=
  s.respond .journalMark (WriteResponse.toRead r)

/-- BLOCK_WRITE_COMPLETE (R155). -/
def execBlockWriteComplete (ch : Chan) (r : WriteResponse) (s : State) : Host.Outcome State Fault Refusal :=
  s.respond (.blockWrite ch) (WriteResponse.toRead r)

/-- SERVED_WRITE_COMPLETE (R157). -/
def execServedWriteComplete (ch : Chan) (r : WriteResponse) (s : State) : Host.Outcome State Fault Refusal :=
  s.respond (.servedWrite ch) (WriteResponse.toRead r)

/-- TEST_SAMPLE_READ_COMPLETE (R161). -/
def execTestSampleReadComplete (r : ReadResponse) (s : State) : Host.Outcome State Fault Refusal :=
  s.respond .testSample r

/-- BLOCK_FETCH_COMPLETE (R163). -/
def execBlockFetchComplete (r : ReadResponse) (s : State) : Host.Outcome State Fault Refusal := s.respond .blockFetch r

/-- TEST_STATUS_WRITE_COMPLETE (R167). -/
def execTestStatusWriteComplete (r : WriteResponse) (s : State) : Host.Outcome State Fault Refusal :=
  s.respond .testStatus (WriteResponse.toRead r)

end Sys2Proof.Machine
end

