-- ==== Sys2Proof/Machine/TestRows.lean ====
section
/-! DEFINITION. The bit clocks of the Test Source (log 2, log 9). -/

namespace Sys2Proof.Machine

/-- A test bit clock at which what the command names comes about. -/
def State.dueTestBit (s : State) (due : TestSource → TestSettings → Bool) : Host.Outcome State Fault Refusal :=
  s.live fun t => if t.emitting.any (due t.test) then t.testBitClock.arbitrate else t

/-- R170: the next bit is a payload bit that the rate inverts. -/
def TestSource.rateBit (t : TestSource) (p : TestSettings) : Bool := p.syncLength ≤ t.position && t.rateDue p

/-- R171: the next bit ends a frame, and a corrupted frame starts. -/
def TestSource.corruptionDue (t : TestSource) (p : TestSettings) : Bool :=
  t.lastBit p && (t.tick p).state == .running && (t.tick p).corrupted

/-- TEST_SOURCE_BIT_CLOCK (R168). -/
def execTestSourceBitClock (s : State) : Host.Outcome State Fault Refusal := s.live fun t => t.testBitClock.arbitrate

/-- TEST_FRAME_START (R166). -/
def execTestFrameStart (s : State) : Host.Outcome State Fault Refusal := s.dueTestBit TestSource.lastBit

/-- RATE_ERROR_INSERTION (R170). -/
def execRateErrorInsertion (s : State) : Host.Outcome State Fault Refusal := s.dueTestBit TestSource.rateBit

/-- SYNC_CORRUPTION (R171). -/
def execSyncCorruption (s : State) : Host.Outcome State Fault Refusal := s.dueTestBit TestSource.corruptionDue

end Sys2Proof.Machine
end

