-- ==== Sys2Proof/Machine/Dispatch.lean ====
section
/-! DEFINITION. The effect of each command, one arm for each row of the opcode table. -/

namespace Sys2Proof.Machine

def exec (i : Instr) (s : State) : Host.Outcome State Fault Refusal :=
  match i with
  | .fullReset phase => Sys2Proof.Machine.execFullReset phase s
  | .softReset run irqen => Sys2Proof.Machine.execSoftReset run irqen s
  | .ctrlRun run => Sys2Proof.Machine.execCtrlRun run s
  | .ctrlIrqen irqen => Sys2Proof.Machine.execCtrlIrqen irqen s
  | .registerWrite offset lanes value => Sys2Proof.Machine.execRegisterWrite offset lanes value s
  | .irqPendWrite value => Sys2Proof.Machine.execIrqPendWrite value s
  | .irqMaskWrite value => Sys2Proof.Machine.execIrqMaskWrite value s
  | .nudgeSlotSample channels => Sys2Proof.Machine.execNudgeSlotSample channels s
  | .nudgeJournalReread => Sys2Proof.Machine.execNudgeJournalReread s
  | .nudgeTestSample => Sys2Proof.Machine.execNudgeTestSample s
  | .nudgeTestInject => Sys2Proof.Machine.execNudgeTestInject s
  | .strtRisingEdge => Sys2Proof.Machine.execStrtRisingEdge s
  | .bitClock ch bit => Sys2Proof.Machine.execBitClock ch bit s
  | .checkDecision ch bit => Sys2Proof.Machine.execCheckDecision ch bit s
  | .lockDecision ch bit => Sys2Proof.Machine.execLockDecision ch bit s
  | .latePositionDecision ch bit => Sys2Proof.Machine.execLatePositionDecision ch bit s
  | .quietEntry ch bit => Sys2Proof.Machine.execQuietEntry ch bit s
  | .activeEntry ch bit => Sys2Proof.Machine.execActiveEntry ch bit s
  | .quietWindowEnd ch bit => Sys2Proof.Machine.execQuietWindowEnd ch bit s
  | .noclockRecovery ch bit => Sys2Proof.Machine.execNoclockRecovery ch bit s
  | .gapTimerExpiry ch => Sys2Proof.Machine.execGapTimerExpiry ch s
  | .idlePollExpiry => Sys2Proof.Machine.execIdlePollExpiry s
  | .captureHoldoffExpiry ch => Sys2Proof.Machine.execCaptureHoldoffExpiry ch s
  | .journalHoldoffExpiry => Sys2Proof.Machine.execJournalHoldoffExpiry s
  | .responseTimeout => Sys2Proof.Machine.execResponseTimeout s
  | .lateResponse r => Sys2Proof.Machine.execLateResponse r s
  | .headerReadComplete r => Sys2Proof.Machine.execHeaderReadComplete r s
  | .mirrorWriteComplete r => Sys2Proof.Machine.execMirrorWriteComplete r s
  | .slotReadComplete ch r => Sys2Proof.Machine.execSlotReadComplete ch r s
  | .programFetchFixedComplete ch r => Sys2Proof.Machine.execProgramFetchFixedComplete ch r s
  | .programFetchTailComplete ch r => Sys2Proof.Machine.execProgramFetchTailComplete ch r s
  | .programTorn ch r => Sys2Proof.Machine.execProgramTorn ch r s
  | .generationWriteComplete ch r => Sys2Proof.Machine.execGenerationWriteComplete ch r s
  | .statusWriteComplete ch r => Sys2Proof.Machine.execStatusWriteComplete ch r s
  | .reReadComplete ch r => Sys2Proof.Machine.execReReadComplete ch r s
  | .recordBurstComplete ch r => Sys2Proof.Machine.execRecordBurstComplete ch r s
  | .markWriteComplete ch r => Sys2Proof.Machine.execMarkWriteComplete ch r s
  | .journalRecordWriteComplete r => Sys2Proof.Machine.execJournalRecordWriteComplete r s
  | .journalReReadComplete r => Sys2Proof.Machine.execJournalReReadComplete r s
  | .journalMarkWriteComplete r => Sys2Proof.Machine.execJournalMarkWriteComplete r s
  | .blockWriteComplete ch r => Sys2Proof.Machine.execBlockWriteComplete ch r s
  | .servedWriteComplete ch r => Sys2Proof.Machine.execServedWriteComplete ch r s
  | .testSampleReadComplete r => Sys2Proof.Machine.execTestSampleReadComplete r s
  | .blockFetchComplete r => Sys2Proof.Machine.execBlockFetchComplete r s
  | .testStatusWriteComplete r => Sys2Proof.Machine.execTestStatusWriteComplete r s
  | .testSourceBitClock => Sys2Proof.Machine.execTestSourceBitClock s
  | .testFrameStart => Sys2Proof.Machine.execTestFrameStart s
  | .rateErrorInsertion => Sys2Proof.Machine.execRateErrorInsertion s
  | .syncCorruption => Sys2Proof.Machine.execSyncCorruption s
  | .drainEnd => Sys2Proof.Machine.execDrainEnd s
  | .writebackSettled ch => Sys2Proof.Machine.execWritebackSettled ch s
  | .timebaseTick => Sys2Proof.Machine.execTimebaseTick s

end Sys2Proof.Machine
end

