-- ==== Sys2Proof/Safety.lean ====
section
/-! DEFINITION. What holds of every state a run reaches, and the frames of the operations on channels. -/

namespace Sys2Proof.Machine

/-! ## The invariant -/

/-- The staging buffers in use: that of the record in fill, then those of the writeback queue. -/
def Capture.buffers (c : Capture) : List BufferId := (c.fill.toList.map (·.buffer)) ++ c.queue.map (·.buffer)

/-- R96, R98: no staging buffer is in use twice, so at most two are in use. -/
def Channel.BuffersApart (c : Channel) : Prop := c.capture.buffers.Nodup

/-- R177: the port is never idle while a request waits. -/
def Port.Granted (p : Port) : Prop := p.inFlight ≠ none ∨ p.choice = none

/-- R175, R176: the queue of a class holds requests of that class only. -/
def Port.Sorted (p : Port) : Prop := (∀ r ∈ p.classA, r.classOf = .a) ∧ ∀ r ∈ p.classB, r.classOf = .b

/-- R174: a read in flight carries no bytes to memory. -/
def Port.ReadsCarryNothing (p : Port) : Prop :=
  ∀ t, p.inFlight = some t → t.request.isWrite = false → t.data = []

/-- A transaction as a request makes it: its result is expected (R184), and a read carries no bytes (R174). -/
def Transaction.Made (t : Transaction) : Prop := t.orphan = false ∧ (t.request.isWrite = false → t.data = [])

/-- R195: the bits of CPBASE that no field occupies read 0. -/
def Registers.BaseAligned (r : Registers) : Prop := r.cpbaseLo &&& 0xFFF = 0 ∧ r.cpbaseHi &&& 0xFFFF0000 = 0

/-- Nothing is left of a fault: the fault code is NONE and no request is frozen (R70, R196). -/
def State.Unfaulted (s : State) : Prop := s.faultCode = .none ∧ s.frozen = .none

/-- R186: the device has followed CTRL.RUN: it is not DORMANT or STOPPED while RUN is 1, and not RUNNING while RUN is 0. -/
def State.Followed (s : State) : Prop :=
  match s.device with
  | .dormant | .stopped => s.regs.run = false
  | .running => s.regs.run = true
  | .starting | .draining | .faulted => True

/-- What holds at every moment of a step: the memory image has its canonical form; the event queue never holds more than
sixteen events (R136); the guard count is at most eight (R179); a queue of the port holds requests of its class only (R176);
a read in flight carries no bytes (R174); the requests that the command under way has made are as it made them; the fault code
is NONE and nothing is frozen in every state but FAULTED (R70, R196); the unoccupied bits of CPBASE are 0 (R195); and no staging
buffer is in use twice (R96, R98). -/
structure State.Tidy (s : State) : Prop where
  memory : Memory.wf s.mem = true
  queue : s.events.queue.length ≤ 16
  guard : s.port.guard ≤ 8
  sorted : s.port.Sorted
  reads : s.port.ReadsCarryNothing
  made : ∀ t ∈ s.port.arrivals, t.Made
  unfaulted : s.device = .faulted ∨ s.Unfaulted
  base : s.regs.BaseAligned
  buffers : ∀ ch, (s.chan ch).BuffersApart

/-- What holds of a step before its requests arrive: the device has followed CTRL.RUN as well. -/
structure State.Sound (s : State) : Prop extends s.Tidy where
  followed : s.Followed

/-- The invariant: the port is never idle while a request waits (R177), every request made has arrived at the arbiter (R176), and
all of the above. -/
structure State.Inv (s : State) : Prop extends s.Sound where
  granted : s.port.Granted
  arrived : s.port.arrivals = []

/-! ## Frames -/

/-- What an operation of the channels' blocks leaves as it was: everything outside the channels, the Event Unit and the port; the
channels of which `p` holds; and of the port everything but the requests that the command has made, to which the operation may
add. It also keeps the bound of the event queue and the staging buffers apart. -/
structure Keeps (p : Chan → Prop) (s t : State) : Prop where
  pending : t.pending = s.pending
  resetHeld : t.resetHeld = s.resetHeld
  device : t.device = s.device
  faultCode : t.faultCode = s.faultCode
  sessionBase : t.sessionBase = s.sessionBase
  params : t.params = s.params
  idlePoll : t.idlePoll = s.idlePoll
  timebase : t.timebase = s.timebase
  regs : t.regs = s.regs
  test : t.test = s.test
  frozen : t.frozen = s.frozen
  mem : t.mem = s.mem
  freeCount : t.freeCount = s.freeCount
  port : ∃ l, t.port = { s.port with arrivals := s.port.arrivals ++ l } ∧ ∀ x ∈ l, x.Made
  queue : s.events.queue.length ≤ 16 → t.events.queue.length ≤ 16
  others : ∀ ch, p ch → t.chan ch = s.chan ch
  buffers : (∀ ch, (s.chan ch).BuffersApart) → ∀ ch, (t.chan ch).BuffersApart

/-- Only one channel, the Event Unit and the requests made are touched. -/
abbrev KeepsBut (ch : Chan) (s t : State) : Prop := Keeps (· ≠ ch) s t

/-- No channel is touched. -/
abbrev KeepsChans (s t : State) : Prop := Keeps (fun _ => True) s t

/-! ## What statements say of responses and events -/

/-- A synchronizer that enters OFF (R29), or SEARCH from OFF or at a heavy change or a clock loss (R21, R22, R28): no decision is held
open, the history, the spill bits and the retained distances are cleared, the counts and the position counter are 0; the frame number,
the marks and the inversion state stay. The counts in SEARCH where no rule sets them are
the model's (log 18). -/
def Synchronizer.emptied (y : Synchronizer) (state : SyncState) : Synchronizer :=
  { y with
    state := state, history := [], spill := [], lastDistance := none, heldOpen := none, position := 0, checkCount := 0,
    missCount := 0 }

/-- The transaction in flight is this request's, its requester expects the result (R184), and RSTN is not low (R202). -/
structure State.Answering (s : State) (r : Request) (t : Transaction) : Prop where
  live : s.resetHeld = false
  flying : s.port.inFlight = some t
  request : t.request = r
  expected : t.orphan = false

/-- Events handed over in this order: while the Event Unit takes events and has room for all of them, they stand at the tail
of the queue, stamped with the timebase of `s` (R136). -/
def State.Reports (s u : State) (l : List (Option Chan × EventBody)) : Prop :=
  s.device.takesEvents = true → s.events.queue.length + l.length ≤ 16 →
    u.events.queue = s.events.queue ++ l.map fun e => ⟨e.1, e.2, s.timebase⟩

/-- What keeps a FAULTED device still: nothing at the port, no timer that runs and no monitor that evaluates (R34, R131, R135,
R184, R190, R193). -/
structure State.Still (s : State) : Prop where
  device : s.device = .faulted
  idlePoll : s.idlePoll = none
  inFlight : s.port.inFlight = none
  timer : s.port.timer = none
  granted : s.port.Granted
  arrived : s.port.arrivals = []
  channels : ∀ ch, (s.chan ch).monitor.evaluating = false ∧ (s.chan ch).wb.holdoff = none
  holdoff : s.events.holdoff = none

/-- Entry to FAULTED with a fault code: every block stops and the port is emptied (R29, R34, R92, R110, R113, R135, R184, R193). The
transaction that faults has ended, and what the blocks had waiting besides stays as it was (R70, R135, R152, R160, R183), but for
the bursts and the re-reads, which go with the groups discarded (R113; log 34). -/
structure State.Faults (s u : State) (code : FaultCode) : Prop where
  pending : u.pending = s.pending
  resetHeld : u.resetHeld = s.resetHeld
  device : u.device = .faulted
  faultCode : u.faultCode = code
  sessionBase : u.sessionBase = s.sessionBase
  params : u.params = s.params
  idlePoll : u.idlePoll = none
  timebase : u.timebase = s.timebase
  regs : u.regs = { s.regs with irqPend := s.regs.irqPend ||| 0x200 }
  prog : ∀ ch, (u.chan ch).prog = (s.chan ch).prog
  sync : ∀ ch, (u.chan ch).sync = (s.chan ch).sync.emptied .off
  monitor : ∀ ch, (u.chan ch).monitor = { (s.chan ch).monitor with evaluating := false }
  capture : ∀ ch, (u.chan ch).capture = { fill := none, queue := [], phase := 0 }
  wb : ∀ ch, (u.chan ch).wb = { (s.chan ch).wb with holdoff := none, spell := none, placement := .idle }
  stats : ∀ ch, (u.chan ch).stats = (s.chan ch).stats
  events : u.events = { s.events with holdoff := none }
  test : u.test = s.test
  port : ∀ r, u.port.outstanding r = false
  timer : u.port.timer = none
  flies : ∀ r, u.flies r = false
  waits : ∀ r, u.waits r = (s.port.waiting r && !r.ofPlacement)
  still : u.Still

/-- The command that answers a request's transaction with ERROR. -/
def Request.failure : Request → Instr
  | .headerRead => .headerReadComplete .error
  | .mirrorWrite => .mirrorWriteComplete .error
  | .slotRead ch => .slotReadComplete ch .error
  | .fetchFixed ch => .programFetchFixedComplete ch .error
  | .fetchTail ch => .programFetchTailComplete ch .error
  | .generationWrite ch => .generationWriteComplete ch .error
  | .statusWrite ch => .statusWriteComplete ch .error
  | .reRead ch => .reReadComplete ch .error
  | .recordBurst ch => .recordBurstComplete ch .error
  | .markWrite ch => .markWriteComplete ch .error
  | .journalRecord => .journalRecordWriteComplete .error
  | .journalReRead => .journalReReadComplete .error
  | .journalMark => .journalMarkWriteComplete .error
  | .blockWrite ch => .blockWriteComplete ch .error
  | .servedWrite ch => .servedWriteComplete ch .error
  | .testSample => .testSampleReadComplete .error
  | .blockFetch => .blockFetchComplete .error
  | .testStatus => .testStatusWriteComplete .error

/-- The command that answers a request's transaction with OKAY; `bytes` are those that a read brings. -/
def Request.success (bytes : List Byte) : Request → Instr
  | .headerRead => .headerReadComplete (.okay bytes)
  | .mirrorWrite => .mirrorWriteComplete .okay
  | .slotRead ch => .slotReadComplete ch (.okay bytes)
  | .fetchFixed ch => .programFetchFixedComplete ch (.okay bytes)
  | .fetchTail ch => .programFetchTailComplete ch (.okay bytes)
  | .generationWrite ch => .generationWriteComplete ch .okay
  | .statusWrite ch => .statusWriteComplete ch .okay
  | .reRead ch => .reReadComplete ch (.okay bytes)
  | .recordBurst ch => .recordBurstComplete ch .okay
  | .markWrite ch => .markWriteComplete ch .okay
  | .journalRecord => .journalRecordWriteComplete .okay
  | .journalReRead => .journalReReadComplete (.okay bytes)
  | .journalMark => .journalMarkWriteComplete .okay
  | .blockWrite ch => .blockWriteComplete ch .okay
  | .servedWrite ch => .servedWriteComplete ch .okay
  | .testSample => .testSampleReadComplete (.okay bytes)
  | .blockFetch => .blockFetchComplete (.okay bytes)
  | .testStatus => .testStatusWriteComplete .okay

/-- The bytes that a read's response brings. -/
def responseBytes : ReadResponse → Option (List Byte)
  | .okay bytes => some bytes
  | .error => none

/-- The bytes that a command brings as the answer to a read in flight; none for every other command. -/
def broughtBytes : Instr → Option (List Byte)
  | .headerReadComplete r | .slotReadComplete _ r | .programFetchFixedComplete _ r | .programFetchTailComplete _ r
  | .programTorn _ r | .reReadComplete _ r | .journalReReadComplete r | .testSampleReadComplete r | .blockFetchComplete r =>
    responseBytes r
  | _ => none

end Sys2Proof.Machine
end

