-- ==== Sys2Proof/Certificates/Slice0/Obligations.lean ====
section
/-! DEFINITION. The statements for the provers, chapter by chapter of the spec. -/

open Sys2Proof Sys2Proof.Machine

/-! ## The queue of commands, and what a step is -/

/-- A step takes the command at the front of the queue and runs it on the state with the rest of the queue; on an empty queue
the block idles, which is the model's choice (log 1). -/
def Obligations.StepRunsFront : Prop :=
  (∀ (c : Instr) (rest : List Instr) (s : State), s.pending = c :: rest → step s = exec c { s with pending := rest })
    ∧ ∀ s : State, s.pending = [] → step s = .next s

/-- Every command completes, unless it answers a read in flight with another number of bytes than the read asked for, which
R174 rules out (log 22); that one stops. The queue of commands stays as it is. -/
def Obligations.CommandsComplete : Prop :=
  ∀ (c : Instr) (s : State),
    (∃ t, exec c s = .next t ∧ t.pending = s.pending)
      ∨ exec c s = .fault .malformedResponse ∧ ∃ bytes w,
          broughtBytes c = some bytes ∧ s.port.inFlight = some w ∧ w.request.isWrite = false ∧ bytes.length ≠ w.length

/-! ## Reset and the invariant -/

/-- What a full reset leaves, block by block (R1, R34, R45, R70, R92, R113, R135, R152, R160, R184, R185, R200), and what the
registers read then (R195). That the mark of a corrupted test frame is clear (log 27) and that no mark write of a run has
completed (log 20) are the model's choices, and so are the record of what FAULTED froze (log 34), which is empty, and that no
items of a record are held with none in fill (log 35). -/
def Obligations.ResetState : Prop :=
  let s := State.reset
  s.device = .dormant ∧ s.faultCode = .none ∧ s.sessionBase = 0 ∧ s.params = ⟨0, 0, 0, 0, 0, false⟩ ∧ s.idlePoll = none
    ∧ s.timebase = 0
    ∧ (∀ ch, (s.chan ch).prog =
        { runState := .idle, inForce := none, settings := none, rejected := 0, rejectReason := .none, runIndex := 0,
          area := none, latestAreaBase := 0, latestAreaSize := 0, latestRelease := 0, fetch := none, held := none,
          tornCount := 0 }
      ∧ (s.chan ch).sync =
        { state := .off, history := [], spill := [], lastDistance := none, heldOpen := none, position := 0,
          checkCount := 0, missCount := 0, inverted := false, frameNumber := 0, frameBegun := false,
          exhausted := false }
      ∧ (s.chan ch).monitor =
        { state := .active, evaluating := false, lastBit := none, quietRun := 0, windowPosition := 0,
          windowTransitions := 0, recovery := 0, gap := none }
      ∧ (s.chan ch).capture = { fill := none, queue := [], phase := 0 }
      ∧ (s.chan ch).wb =
        { writeMark := 0, acceptedRelease := 0, published := 0, runMarked := false, notified := 0, holdoff := none,
          lastBad := none, spell := none, placement := .idle }
      ∧ (s.chan ch).stats =
        { counters := ⟨0, 0, 0, 0, 0, 0, 0, 0, 0, 0, 0, 0, 0, 0, 0, 0⟩, latch := none, latchedRequest := 0,
          served := 0 })
    ∧ s.events =
      { queue := [], droppedCount := 0, droppedTotal := 0, writeMark := 0, acceptedRelease := 0, published := 0,
        noticed := 0, holdoff := none, badReleases := 0, lastBad := none, sequence := 0, placement := .idle }
    ∧ s.test =
      { state := .stopped, settings := none, waiting := none, adopted := 0, rejected := 0, rejectReason := .none,
        fetch := none, position := 0, lfsr := 0, errorCount := 0, corruptionCount := 0, corrupted := false,
        inject := false, stopRequested := false }
    ∧ (∀ r, s.port.outstanding r = false ∧ s.outstanding r = false) ∧ s.frozen = ⟨[], none⟩ ∧ s.port.roundRobin = .ch0
    ∧ s.port.guard = 0 ∧ s.port.timer = none
    ∧ s.readRegister .id = 0x1C4A0F81 ∧ (∀ r, r ≠ .id → s.readRegister r = 0)

/-- The invariant holds right after reset. -/
def Obligations.ResetInv : Prop := State.reset.Inv

/-- Every step keeps the invariant. -/
def Obligations.StepKeepsInv : Prop := ∀ s t : State, s.Inv → step s = .next t → t.Inv

/-- A full reset gives every item its reset value but the image of memory and the commands that wait; of memory only bytes of
a write that was in flight may change (R174, R202). A soft reset does the same, but CPBASE_LO, CPBASE_HI and IRQ_MASK keep their
values (R202), whatever RUN and IRQEN the write carries (R196). While RSTN is low every command but RSTN's own is without effect
(R202; log 16). -/
def Obligations.Resets : Prop :=
  ∀ (phase : RstnPhase) (run irqen : Bool) (s : State),
    let memoryKept (t : State) : Prop := (s.port.inFlight = none → t.mem = s.mem)
      ∧ ∀ w, s.port.inFlight = some w → ∀ a, (∀ i, i < w.data.length → busAddress (w.address + i) ≠ a) →
        Memory.read t.mem a = Memory.read s.mem a
    (∃ t, exec (.fullReset phase) s = .next t ∧ memoryKept t
      ∧ t = { State.reset with
          pending := s.pending, resetHeld := decide (phase = .held), mem := t.mem, freeCount := t.freeCount })
      ∧ (s.resetHeld = false → ∃ t, exec (.softReset run irqen) s = .next t ∧ memoryKept t
        ∧ t = { State.reset with
            pending := s.pending, mem := t.mem, freeCount := t.freeCount
            regs :=
              { run := false, irqen := false, cpbaseLo := s.regs.cpbaseLo, cpbaseHi := s.regs.cpbaseHi, irqPend := 0,
                irqMask := s.regs.irqMask } })
      ∧ ∀ c : Instr, s.resetHeld = true → (∀ phase, c ≠ .fullReset phase) → exec c s = .next s

/-! ## Registers and interrupts -/

/-- A write of IRQEN, and a write of RUN that the device need not follow, change that bit of CTRL and nothing else (R186,
R196; log 15). -/
def Obligations.CtrlStored : Prop :=
  ∀ (b : Bool) (s : State), s.resetHeld = false → s.Inv →
    exec (.ctrlIrqen b) s = .next { s with regs := { s.regs with irqen := b } }
      ∧ ((s.device = .starting ∨ s.device = .draining ∨ s.device = .faulted ∨ s.regs.run = b) →
        exec (.ctrlRun b) s = .next { s with regs := { s.regs with run := b } })

/-- CTRL.RUN set in DORMANT or STOPPED: the device enters STARTING, every block takes its STARTING condition, and the header
read is the first transaction of the session (R70, R184, R186, R187). -/
def Obligations.CtrlRunStarts : Prop :=
  ∀ s : State, s.resetHeld = false → s.device = .dormant ∨ s.device = .stopped → ∃ p,
    exec (.ctrlRun true) s = .next
      { s with
        regs := { s.regs with run := true }
        device := .starting
        faultCode := .none
        sessionBase := s.regs.cpbaseHi.toNat * 2 ^ 32 + s.regs.cpbaseLo.toNat
        idlePoll := none
        chans := PerChannel.all Channel.reset
        events := .reset
        test := .reset
        port := p
        frozen := ⟨[], none⟩ }
      ∧ p.roundRobin = .ch0 ∧ p.guard = 0 ∧ p.classA = [] ∧ (∀ ch, p.classC.get ch = false) ∧ p.arrivals = []
      ∧ (s.port.inFlight = none →
        p.classB = [] ∧ p.timer = some 0 ∧ p.inFlight = some
          { request := .headerRead, address := s.regs.cpbaseHi.toNat * 2 ^ 32 + s.regs.cpbaseLo.toNat, length := 256,
            data := [], orphan := false })
      ∧ ∀ w, s.port.inFlight = some w →
        p.classB = [.headerRead] ∧ p.timer = s.port.timer ∧ p.inFlight = some { w with orphan := true }

/-- CTRL.RUN cleared in RUNNING: the device enters DRAINING; every ARMED and RUNNING channel is HALTED, its CHANNEL_STATE with
cause DRAIN behind the DEVICE_STATE, every pending program dropped, the Test Source asked to stop (R191, R68, R69, R87, R172);
then the end of the drain is tested (R192). On a channel that is HALTED the synchronizer enters OFF, keeping its frame number,
marks and inversion (R29); then the record in fill is closed truncated (R68, R109) and an open spell may be taken up alone (R127).
That the channels are HALTED in the order CH0 to CH7 is the model's choice (log 32). -/
def Obligations.CtrlRunDrains : Prop :=
  ∀ s : State, s.resetHeld = false → s.Inv → s.device = .running →
    let halted := allChans.filter fun ch => (s.chan ch).prog.runState = .armed ∨ (s.chan ch).prog.runState = .running
    ∃ u : State, exec (.ctrlRun false) s = .next u.drainCheck.arbitrate
      ∧ u.device = .draining ∧ u.idlePoll = none ∧ u.regs = { s.regs with run := false }
      ∧ u.test = (if s.test.state = .running then { s.test with stopRequested := true } else s.test)
      ∧ u.port.waiting .mirrorWrite = true
      ∧ (s.events.queue.length < 16 → ∃ later,
          u.events.queue = s.events.queue ++ ⟨none, .deviceState .draining, s.timebase⟩ :: later)
      ∧ s.Reports u ((none, .deviceState .draining)
          :: halted.map fun ch => (some ch, .channelState .halted (s.chan ch).prog.runIndex .drain))
      ∧ (∀ ch, (s.chan ch).prog.runState = .armed ∨ (s.chan ch).prog.runState = .running →
          (u.chan ch).prog = { (s.chan ch).prog with runState := .halted, held := none }
            ∧ (u.chan ch).sync = (s.chan ch).sync.emptied .off ∧ (u.chan ch).monitor = (s.chan ch).monitor
            ∧ (∃ x : State, x.chan ch = { s.chan ch with prog := (u.chan ch).prog, sync := (u.chan ch).sync }
              ∧ u.chan ch = ((x.truncate ch).writebackNext ch).chan ch)
            ∧ (u.chan ch).capture.fill = none ∧ u.port.waiting (.statusWrite ch) = true)
      ∧ (∀ ch, ¬((s.chan ch).prog.runState = .armed ∨ (s.chan ch).prog.runState = .running) →
          u.chan ch = { s.chan ch with prog := { (s.chan ch).prog with held := none } })
      ∧ u.mem = s.mem ∧ u.timebase = s.timebase ∧ u.sessionBase = s.sessionBase ∧ u.params = s.params
      ∧ u.faultCode = s.faultCode ∧ u.frozen = s.frozen ∧ u.port.inFlight = s.port.inFlight

/-- Register writes, of at most four bytes each, which is the model's choice (log 36). Ignored: those that cover no register
whole, being narrower than four bytes or at an offset that is no register's; those to ID or STATE; those to CPBASE in STARTING,
RUNNING and DRAINING. Of the four bytes of a register: CPBASE is stored in DORMANT, STOPPED and FAULTED, its unoccupied bits
reading 0; a CTRL write with SRST is a soft reset, and any other stores RUN and IRQEN together and the device follows RUN; a NUDGE
write in RUNNING acts with all its bits together, and is discarded otherwise; a write of any other register is the command of its
own row. IRQ_PEND bits written as 1 are cleared, and the others stay; IRQ_MASK is stored; and nothing else changes (R195 to R199;
log 15). -/
def Obligations.RegisterWrite : Prop :=
  ∀ (value : Word) (s : State), s.Inv →
    let write (r : Register) : Instr := .registerWrite (registerOffset r) 0xF value
    (∀ offset lanes, lanes ≠ 0xF ∨ offset % 4 ≠ 0 → exec (.registerWrite offset lanes value) s = .next s)
      ∧ (∀ reg lanes, lanes ≠ 0xF ∨ reg = .id ∨ reg = .state
        ∨ (reg = .cpbaseLo ∨ reg = .cpbaseHi)
          ∧ (s.device = .starting ∨ s.device = .running ∨ s.device = .draining)
        ∨ reg = .nudge ∧ s.device ≠ .running →
      exec (.registerWrite (registerOffset reg) lanes value) s = .next s)
      ∧ (s.resetHeld = false → s.device = .dormant ∨ s.device = .stopped ∨ s.device = .faulted →
        exec (write .cpbaseLo) s = .next { s with regs := { s.regs with cpbaseLo := value &&& 0xFFFFF000 } }
        ∧ exec (write .cpbaseHi) s = .next { s with regs := { s.regs with cpbaseHi := value &&& 0x0000FFFF } })
      ∧ (value.getLsbD 1 = true → exec (write .ctrl) s = exec (.softReset (value.getLsbD 0) (value.getLsbD 2)) s)
      ∧ (value.getLsbD 1 = false → value.getLsbD 2 = s.regs.irqen →
        exec (write .ctrl) s = exec (.ctrlRun (value.getLsbD 0)) s)
      ∧ (value.getLsbD 1 = false → value.getLsbD 0 = s.regs.run →
        exec (write .ctrl) s = exec (.ctrlIrqen (value.getLsbD 2)) s)
      ∧ (value.getLsbD 1 = false → s.resetHeld = false → exec (write .ctrl) s
        = exec (.ctrlRun (value.getLsbD 0)) { s with regs := { s.regs with irqen := value.getLsbD 2 } })
      ∧ (s.resetHeld = false → s.device = .running → ∃ p, exec (write .nudge) s = .next
          { s with
            port := p
            test := if value.getLsbD 10 = true ∧ s.test.state = .running then { s.test with inject := true } else s.test }
        ∧ (∀ ch, p.outstanding (.slotRead ch)
            = (s.port.outstanding (.slotRead ch) || value.getLsbD (chanNumber ch)))
        ∧ p.outstanding .journalReRead = (s.port.outstanding .journalReRead || value.getLsbD 8)
        ∧ p.outstanding .testSample = (s.port.outstanding .testSample || value.getLsbD 9)
        ∧ ∀ r, r ≠ .journalReRead → r ≠ .testSample → (∀ ch, r ≠ .slotRead ch) →
            p.outstanding r = s.port.outstanding r)
      ∧ (value.toNat < 256 → exec (write .nudge) s = exec (.nudgeSlotSample (value.setWidth 8)) s)
      ∧ exec (write .irqPend) s = exec (.irqPendWrite value) s ∧ exec (write .irqMask) s = exec (.irqMaskWrite value) s
      ∧ (s.resetHeld = false →
        (∃ pend, exec (.irqPendWrite value) s = .next { s with regs := { s.regs with irqPend := pend } }
          ∧ ∀ i, i < 11 → pend.getLsbD i = (s.regs.irqPend.getLsbD i && !value.getLsbD i))
        ∧ ∃ mask, exec (.irqMaskWrite value) s = .next { s with regs := { s.regs with irqMask := mask } }
          ∧ ∀ i, i < 11 → mask.getLsbD i = value.getLsbD i)

/-- What the registers read, at which offsets they stand, and that a read of any width returns the addressed bytes (R195, R196).
Bits not named read 0. That the least significant byte of a register lies at its lowest offset is the model's choice (log 23). -/
def Obligations.RegisterReads : Prop :=
  ∀ s : State,
    (registerOffset .id = 0x00 ∧ registerOffset .ctrl = 0x04 ∧ registerOffset .state = 0x08
        ∧ registerOffset .cpbaseLo = 0x0C ∧ registerOffset .cpbaseHi = 0x10 ∧ registerOffset .nudge = 0x14
        ∧ registerOffset .irqPend = 0x18 ∧ registerOffset .irqMask = 0x1C)
      ∧ (∀ (r : Register) (k width : Nat), k + width ≤ 4 →
        s.readBytes (registerOffset r + k) width = ((bytesOf 4 (s.readRegister r).toNat).drop k).take width)
      ∧ s.readRegister .id = 0x1C4A0F81 ∧ s.readRegister .nudge = 0
      ∧ (s.readRegister .ctrl).getLsbD 0 = s.regs.run ∧ (s.readRegister .ctrl).getLsbD 2 = s.regs.irqen
      ∧ (∀ i, i ≠ 0 → i ≠ 2 → (s.readRegister .ctrl).getLsbD i = false)
      ∧ (s.readRegister .state).toNat % 16 = deviceCode s.device
      ∧ (s.readRegister .state).toNat / 16 % 16 = faultCodeNumber s.faultCode
      ∧ (∀ ch, (s.readRegister .state).getLsbD (8 + chanNumber ch) = decide ((s.chan ch).prog.runState = .running))
      ∧ (∀ i, 16 ≤ i → (s.readRegister .state).getLsbD i = false)
      ∧ s.readRegister .cpbaseLo = s.regs.cpbaseLo ∧ s.readRegister .cpbaseHi = s.regs.cpbaseHi
      ∧ (s.Inv → (∀ i, i < 12 → (s.readRegister .cpbaseLo).getLsbD i = false)
        ∧ ∀ i, 16 ≤ i → (s.readRegister .cpbaseHi).getLsbD i = false)
      ∧ (∀ i, i < 11 → (s.readRegister .irqPend).getLsbD i = s.regs.irqPend.getLsbD i
        ∧ (s.readRegister .irqMask).getLsbD i = s.regs.irqMask.getLsbD i)
      ∧ ∀ i, 11 ≤ i → (s.readRegister .irqPend).getLsbD i = false ∧ (s.readRegister .irqMask).getLsbD i = false

/-- R199: when the interrupt pin is driven low, and otherwise released; it is a function of CTRL, IRQ_MASK and IRQ_PEND, so it
follows every change of them. -/
def Obligations.IrqLine : Prop :=
  ∀ s : State,
    s.irqLow = true ↔
      s.regs.irqen = true ∧ ∃ i, i < 11 ∧ s.regs.irqPend.getLsbD i = true ∧ s.regs.irqMask.getLsbD i = false

/-! ## NUDGE, STRT and the idle poll -/

/-- In RUNNING a NUDGE write makes the reads it names outstanding, and no other; and it asks a running Test Source for a single
inverted bit, which a stopped one ignores. Nothing else changes (R73, R74, R138, R161, R170, R197). Outside RUNNING a NUDGE
write is discarded whole (R197) and a STRT edge is ignored (R201). -/
def Obligations.Nudge : Prop :=
  ∀ (channels : Byte) (s : State), s.Inv →
    (s.device ≠ .running →
      exec (.nudgeSlotSample channels) s = .next s ∧ exec .nudgeJournalReread s = .next s
        ∧ exec .nudgeTestSample s = .next s ∧ exec .nudgeTestInject s = .next s ∧ exec .strtRisingEdge s = .next s)
    ∧ (s.resetHeld = false → s.device = .running →
      (∃ p, exec (.nudgeSlotSample channels) s = .next { s with port := p }
        ∧ (∀ ch, p.outstanding (.slotRead ch)
            = (s.port.outstanding (.slotRead ch) || channels.getLsbD (chanNumber ch)))
        ∧ ∀ r, (∀ ch, r ≠ .slotRead ch) → p.outstanding r = s.port.outstanding r)
        ∧ (∃ p, exec .nudgeJournalReread s = .next { s with port := p } ∧ p.outstanding .journalReRead = true
          ∧ ∀ r, r ≠ .journalReRead → p.outstanding r = s.port.outstanding r)
        ∧ (∃ p, exec .nudgeTestSample s = .next { s with port := p } ∧ p.outstanding .testSample = true
          ∧ ∀ r, r ≠ .testSample → p.outstanding r = s.port.outstanding r)
        ∧ exec .nudgeTestInject s = .next
          { s with test := if s.test.state = .running then { s.test with inject := true } else s.test })

/-- A STRT edge taken in RUNNING: START_EDGE, the timebase zeroed if the session asks for it, and every ARMED channel RUNNING
with its synchronizer in SEARCH and its history empty, its CHANNEL_STATE with cause STRT behind the START_EDGE, stamped with the
restarted timebase. The synchronizer keeps its frame number, marks and inversion, no other block of the channel changes, and the
other channels are untouched (R28, R62, R69, R201). That the channels start in the order CH0 to CH7 (log 32), and the counts in
SEARCH (log 18), are the model's choices. -/
def Obligations.StrtEdge : Prop :=
  ∀ s : State, s.resetHeld = false → s.device = .running →
    let armed := allChans.filter fun ch => (s.chan ch).prog.runState = .armed
    ∃ u : State, exec .strtRisingEdge s = .next u.arbitrate
      ∧ u.timebase = (if s.params.timebaseOnStrt then 0 else s.timebase)
      ∧ (s.events.queue.length < 16 → ∃ later,
          u.events.queue = s.events.queue ++ ⟨none, .startEdge, s.timebase⟩ :: later)
      ∧ (s.events.queue.length + 1 + armed.length ≤ 16 →
          u.events.queue = s.events.queue ++ ⟨none, .startEdge, s.timebase⟩
            :: armed.map fun ch => ⟨some ch, .channelState .running (s.chan ch).prog.runIndex .strt, u.timebase⟩)
      ∧ (∀ ch, (s.chan ch).prog.runState = .armed →
          u.chan ch = { s.chan ch with
              prog := { (s.chan ch).prog with runState := .running }, sync := (s.chan ch).sync.emptied .search }
            ∧ u.port.waiting (.statusWrite ch) = true)
      ∧ (∀ ch, (s.chan ch).prog.runState ≠ .armed → u.chan ch = s.chan ch)
      ∧ u.device = s.device ∧ u.regs = s.regs ∧ u.test = s.test ∧ u.mem = s.mem ∧ u.params = s.params
      ∧ u.idlePoll = s.idlePoll ∧ u.sessionBase = s.sessionBase ∧ u.frozen = s.frozen ∧ u.port.inFlight = s.port.inFlight

/-- The expiries of the idle-poll and the holdoff timers, each of which acts whenever its timer runs, which is the model's choice
(log 7). The idle poll restarts its timer and makes outstanding the journal re-read, the test sample read and the slot read of
every channel but those RUNNING in CHECK, LOCK or FLYWHEEL; nothing else changes (R72, R138, R161, R190). A holdoff timer raises
its notice and stops (R129, R130, R146, R147). -/
def Obligations.PollAndHoldoffExpiries : Prop :=
  ∀ (n : Nat) (s : State), s.resetHeld = false →
    (s.Inv → s.idlePoll = some n → ∃ p,
      exec .idlePollExpiry s = .next { s with idlePoll := some 0, port := p }
        ∧ p.outstanding .journalReRead = true ∧ p.outstanding .testSample = true
        ∧ (∀ ch, p.outstanding (.slotRead ch) = (s.port.outstanding (.slotRead ch)
            || !((s.chan ch).prog.runState == .running && ((s.chan ch).sync.state == .check
              || (s.chan ch).sync.state == .lock || (s.chan ch).sync.state == .flywheel))))
        ∧ ∀ r, r ≠ .journalReRead → r ≠ .testSample → (∀ ch, r ≠ .slotRead ch) →
            p.outstanding r = s.port.outstanding r)
      ∧ (∀ ch, (s.chan ch).wb.holdoff = some n → ∃ u : State, exec (.captureHoldoffExpiry ch) s = .next u
        ∧ u = { s with
            chans := u.chans
            regs := { s.regs with irqPend := s.regs.irqPend ||| BitVec.ofNat 11 (2 ^ chanNumber ch) } }
        ∧ u.chan ch = { s.chan ch with
            wb := { (s.chan ch).wb with notified := (s.chan ch).wb.published, holdoff := none } }
        ∧ ∀ c, c ≠ ch → u.chan c = s.chan c)
      ∧ (s.events.holdoff = some n → exec .journalHoldoffExpiry s = .next
        { s with
          events := { s.events with noticed := s.events.published, holdoff := none }
          regs := { s.regs with irqPend := s.regs.irqPend ||| 0x100 } })

/-! ## Bit clocks and the Activity Monitor -/

/-- A bit clock. The pins of a channel that does not listen to them are ignored: it selects TEST, or its monitor does not evaluate
(R31, R34). Any other reaches the monitor and then, but in NOCLOCK, the synchronizer (R32, R33), the monitor first, which is the
model's choice (log 5). One that brings no change of activity is counted by the monitor and restarts the gap timer (R35, R36,
R39). In NOCLOCK the gap before it is read from the ticks counted (log 8). A synchronizer in OFF takes no bit; in CHECK, LOCK and
FLYWHEEL it takes one that is no decision, and in LOCK and FLYWHEEL hands it on with its number in the frame (R2, R5, R17). -/
def Obligations.BitClockCounted : Prop :=
  (∀ (ch : Chan) (bit : Bool) (s : State), s.Inv →
    s.resetHeld = true ∨ (s.chan ch).prog.input = .test ∨ (s.chan ch).monitor.evaluating = false →
    exec (.bitClock ch bit) s = .next s)
  ∧ (∀ (ch : Chan) (bit : Bool) (s : State), s.resetHeld = false → (s.chan ch).prog.input = .line →
    exec (.bitClock ch bit) s = .next (s.bitClock ch bit).arbitrate)
  ∧ ∀ (ch : Chan) (bit : Bool) (s : State),
    let m := (s.chan ch).monitor
    let y := (s.chan ch).sync
    let change := m.lastBit = some (!bit)
    let counted (n : Monitor) : Prop :=
      s.monitorClock ch bit = s.modMonitor ch fun _ => { n with lastBit := some bit, gap := some 0 }
    (m.evaluating = false → s.bitClock ch bit = s)
      ∧ (m.evaluating = true → m.state = .noclock → s.bitClock ch bit = s.monitorClock ch bit)
      ∧ (m.evaluating = true → m.state ≠ .noclock → s.bitClock ch bit = (s.monitorClock ch bit).takeBit ch bit)
      ∧ (m.state = .active → change → counted { m with quietRun := 0 })
      ∧ (m.state = .active → ¬change → m.quietRun + 1 ≠ 4096 → counted { m with quietRun := m.quietRun + 1 })
      ∧ (∀ n, m.state = .quiet → m.windowTransitions + n ≠ 64 → (change → n = 1) → (¬change → n = 0) →
        m.windowPosition + 1 ≠ 512 →
        counted { m with windowPosition := m.windowPosition + 1, windowTransitions := m.windowTransitions + n })
      ∧ (∀ g, m.state = .noclock → m.gap = some g → m.recovery + 1 ≠ 256 →
        m.recovery = 0 ∨ g ≤ (s.chan ch).prog.timeoutTicks → counted { m with recovery := m.recovery + 1 })
      ∧ (∀ g, m.state = .noclock → m.gap = some g → m.recovery ≠ 0 → (s.chan ch).prog.timeoutTicks < g →
        counted { m with recovery := 1 })
      ∧ (y.state = .off → s.takeBit ch bit = s)
      ∧ ∀ r : RunProgram, (s.chan ch).prog.settings = some r →
        let z := y.take r bit
        let decides := y.heldOpen = none ∧ y.position + 1 = r.frameLength ∨ y.heldOpen ≠ none ∧ y.position = r.frameLength
        (y.state = .check → ¬decides → s.takeBit ch bit = s.modSync ch fun _ => z)
          ∧ (y.state = .lock ∨ y.state = .flywheel → ¬decides → s.takeBit ch bit
            = (s.modSync ch fun _ => z).captureBit ch (r.syncLength - 1 + z.position) (bit != y.inverted))

/-- The entries to QUIET by a bit clock: at the 4096th in a row without a transition, from ACTIVE, the bit goes on to the
synchronizer; at the 256th of a recovery, from NOCLOCK, it does not (R33, R35, R39, R42). That the command is the bit clock under
another name is log 2, that the monitor's event and status write come before the synchronizer's part of the same bit clock is
log 5, and that the gap in NOCLOCK is read from the ticks counted is log 8: all three are the model's. -/
def Obligations.QuietEntry : Prop :=
  ∀ (ch : Chan) (bit : Bool) (s : State), s.resetHeld = false → (s.chan ch).prog.input = .line →
    (s.chan ch).monitor.evaluating = true →
    let m := (s.chan ch).monitor
    let st := (s.chan ch).stats
    let entered (u : State) : Prop := u = s.monitorClock ch bit ∧ KeepsBut ch s u
      ∧ u.chan ch = { s.chan ch with
          monitor :=
            { m with
              state := .quiet, quietRun := (u.chan ch).monitor.quietRun, windowPosition := 0, windowTransitions := 0
              recovery := (u.chan ch).monitor.recovery, lastBit := some bit, gap := some 0 }
          stats := { st with
            counters := { st.counters with quietEntries := saturate st.counters.quietEntries 1 } } }
      ∧ s.Reports u [(some ch, .activity .quiet)] ∧ u.port.waiting (.statusWrite ch) = true
    (m.state = .active → m.lastBit ≠ some (!bit) → m.quietRun = 4095 → ∃ u : State, entered u
      ∧ exec (.quietEntry ch bit) s = .next (u.takeBit ch bit).arbitrate
      ∧ exec (.bitClock ch bit) s = exec (.quietEntry ch bit) s)
      ∧ ∀ g, m.state = .noclock → m.recovery = 255 → m.gap = some g → g ≤ (s.chan ch).prog.timeoutTicks →
        ∃ u : State, entered u ∧ exec (.noclockRecovery ch bit) s = .next u.arbitrate
          ∧ exec (.bitClock ch bit) s = exec (.noclockRecovery ch bit) s

/-- The end of a QUIET window. At its 64th transition QUIET becomes ACTIVE with a quiet run of 0, and no entry is counted. At its
512th bit clock, short of 64 transitions, a new window begins and nothing is reported (R36, R42). That the commands are the bit
clock under another name (log 2), and that the monitor's event and status write come before the synchronizer's part of the same
bit clock (log 5), are the model's choices. -/
def Obligations.QuietWindow : Prop :=
  ∀ (ch : Chan) (bit : Bool) (s : State), s.resetHeld = false → (s.chan ch).prog.input = .line →
    (s.chan ch).monitor.evaluating = true → (s.chan ch).monitor.state = .quiet →
    ((s.chan ch).monitor.lastBit = some (!bit) → (s.chan ch).monitor.windowTransitions = 63 →
      ∃ u : State, u = s.monitorClock ch bit ∧ exec (.activeEntry ch bit) s = .next (u.takeBit ch bit).arbitrate
        ∧ exec (.bitClock ch bit) s = exec (.activeEntry ch bit) s ∧ KeepsBut ch s u
        ∧ (u.chan ch).monitor = { (s.chan ch).monitor with
            state := .active, quietRun := 0, windowPosition := (u.chan ch).monitor.windowPosition,
            windowTransitions := (u.chan ch).monitor.windowTransitions, lastBit := some bit, gap := some 0 }
        ∧ u.chan ch = { s.chan ch with monitor := (u.chan ch).monitor }
        ∧ s.Reports u [(some ch, .activity .active)] ∧ u.port.waiting (.statusWrite ch) = true)
      ∧ ((s.chan ch).monitor.windowPosition = 511 →
        (s.chan ch).monitor.windowTransitions + (if (s.chan ch).monitor.lastBit = some (!bit) then 1 else 0) < 64 →
        exec (.quietWindowEnd ch bit) s = .next ((s.monitorClock ch bit).takeBit ch bit).arbitrate
          ∧ s.monitorClock ch bit = (s.modMonitor ch fun m =>
            { m with windowPosition := 0, windowTransitions := 0, lastBit := some bit, gap := some 0 })
          ∧ exec (.bitClock ch bit) s = exec (.quietWindowEnd ch bit) s)

/-- The expiry of a gap timer: the monitor enters NOCLOCK with its counts at 0; the synchronizer, unless it is OFF, returns to
SEARCH with its history cleared, losing its lock if it had one; the record in fill is closed or dropped; then a program held for a
boundary applies (R21, R37, R38, R42, R85). The position counter in SEARCH, and a count there that R21 does not name, are the
model's (log 18). The command acts whatever the gap timer has counted, which is the model's choice (log 7). A program is held for
a boundary on a RUNNING channel only; it is pending no more once it applies (R84, R85). -/
def Obligations.GapTimerExpiry : Prop :=
  (∀ (ch : Chan) (s : State),
    let p := (s.chan ch).prog
    (p.runState = .running → ∀ q, p.held = some q →
      s.takeHeldFraming ch = (s.modProg ch fun p => { p with held := none }).apply ch q)
      ∧ (p.runState ≠ .running ∨ p.held = none → s.takeHeldFraming ch = s))
  ∧ ∀ (ch : Chan) (s : State), s.resetHeld = false → (s.chan ch).monitor.evaluating = true →
    (s.chan ch).monitor.state ≠ .noclock →
    let y := (s.chan ch).sync
    let c := (s.chan ch).stats.counters
    ∃ x u : State, exec (.gapTimerExpiry ch) s = .next (u.takeHeldFraming ch).arbitrate ∧ KeepsBut ch s u
      ∧ u.chan ch = (x.truncate ch).chan ch
      ∧ x.chan ch = { s.chan ch with
          monitor := (u.chan ch).monitor
          sync := (u.chan ch).sync
          stats := { (s.chan ch).stats with
            counters := { c with
              noclockEntries := saturate c.noclockEntries 1
              losses := if y.state = .lock ∨ y.state = .flywheel then saturate c.losses 1 else c.losses } } }
      ∧ (u.chan ch).monitor = { (s.chan ch).monitor with
          state := .noclock, lastBit := none, quietRun := 0, windowPosition := 0, windowTransitions := 0, recovery := 0 }
      ∧ (u.chan ch).prog = (s.chan ch).prog ∧ (u.chan ch).capture.fill = none
      ∧ (u.chan ch).sync = (match y.state with
        | .off => y
        | .search => { y with history := [], spill := [], lastDistance := none, heldOpen := none }
        | .check | .lock | .flywheel => y.emptied .search)
      ∧ s.Reports u ((some ch, .activity .noclock)
          :: if y.state = .lock ∨ y.state = .flywheel then [(some ch, .lockLost .clock y.frameNumber)] else [])
      ∧ u.port.waiting (.statusWrite ch) = true

/-! ## The Frame Synchronizer -/

/-- What the synchronizer's own steps leave. A bit taken enters the history after inversion, the history holds at most 64 bits,
the two that left it last are the spill bits, outside SEARCH the position counter rises, and the distance is the number of masked
positions at which history and pattern differ, none while fewer than L bits are held; the complement distance is the masked count
less the distance, and no distance is within no tolerance (R2, R4, R5). A frame begun leaves the state and counter that its kind
brings, no decision held open, and the next frame number, 0 for the first frame of a run (R10 to R16, R18). It is handed with its
attributes (R16) and with its bits taken so far, in the order received (R17). That the position counter stands still in SEARCH is
the model's choice (log 18): R5 does not say it. -/
def Obligations.SynchronizerSteps : Prop :=
  (∀ (y : Synchronizer) (r : RunProgram) (bit : Bool),
    let z := y.take r bit
    z.history = ((bit != y.inverted) :: y.history).take 64
      ∧ (y.history.length ≤ 64 → z.history.length = min 64 (y.history.length + 1))
      ∧ (y.history.length < 64 → y.spill.length ≤ 2 → z.spill = y.spill)
      ∧ (∀ h old, y.history = h ++ [old] → y.history.length = 64 → z.spill = (old :: y.spill).take 2)
      ∧ z.position = (if y.state = .search then y.position else y.position + 1)
      ∧ z = { y with history := z.history, spill := z.spill, position := z.position, lastDistance := z.lastDistance }
      ∧ (z.history.length < r.syncLength → z.lastDistance = none)
      ∧ (r.syncLength ≤ z.history.length → z.lastDistance = some
        ((List.range r.syncLength).countP fun i =>
          r.syncMask.getLsbD i && (z.history.getD i false != r.syncPattern.getLsbD i)))
      ∧ (∀ d, complementDistance r (some d)
        = some ((List.range r.syncLength).countP (fun i => r.syncMask.getLsbD i) - d))
      ∧ complementDistance r none = none
      ∧ ∀ d tolerance, within none tolerance = false ∧ within (some d) tolerance = decide (d ≤ tolerance))
  ∧ (∀ (y : Synchronizer) (syncLength position : Nat),
    let bits := y.frameBits syncLength position
    syncLength + position ≤ y.history.length + y.spill.length → bits.length = syncLength + position
      ∧ ∀ i, i < syncLength + position → bits[i]? = (y.history ++ y.spill)[syncLength + position - 1 - i]?)
  ∧ ∀ (y : Synchronizer) (k : FrameStart) (now : Dword),
    let n : Word := if y.frameBegun then y.frameNumber + 1 else 0
    let f := y.frame k now
    (f.number = n ∧ f.flywheel = decide (k.kind = .flywheel) ∧ f.slippedEarly = decide (k.kind = .early)
      ∧ f.slippedLate = decide (k.kind = .late) ∧ f.inverted = y.inverted ∧ f.distance = k.distance ∧ f.timestamp = now
      ∧ f.firstOfLock = decide (k.kind = .first)) ∧
    (y.begin k).state = (if k.kind = .flywheel then .flywheel else .lock) ∧ (y.begin k).position = k.position
      ∧ (y.begin k).heldOpen = none ∧ (y.begin k).frameNumber = n ∧ (y.begin k).frameBegun = true
      ∧ (y.begin k).exhausted = (y.exhausted || n == 0xFFFFFFFF)
      ∧ (y.begin k).missCount = (if k.kind = .flywheel then if y.state = .flywheel then y.missCount + 1 else 1 else 0)
      ∧ (y.begin k).checkCount = (if k.kind = .first then y.checkCount + 1 else y.checkCount)
      ∧ (y.begin k).history = y.history ∧ (y.begin k).spill = y.spill ∧ (y.begin k).inverted = y.inverted
      ∧ (y.begin k).lastDistance = y.lastDistance

/-- A bit taken in SEARCH: no match, a match, which enters CHECK, or a match in the complement under AUTO_POLARITY, which flips
the polarity first (R7, R8, R18). Once the frame numbers are used up no match is taken, a complement match with its flip included
(log 17), and the miss count at entry to CHECK is 0 (log 18): both are the model's. So is the order of the two blocks (log 5):
`u0` is the state once the monitor has counted the bit clock, which comes before the synchronizer's part. -/
def Obligations.SearchBit : Prop :=
  ∀ (ch : Chan) (bit : Bool) (r : RunProgram) (s : State), s.resetHeld = false → (s.chan ch).prog.input = .line →
    (s.chan ch).monitor.evaluating = true → (s.chan ch).monitor.state ≠ .noclock →
    (s.chan ch).prog.settings = some r → (s.chan ch).sync.state = .search →
    let u0 := s.monitorClock ch bit
    let y := (s.chan ch).sync.take r bit
    let matched := within y.lastDistance r.searchTol = true
    let flipped := r.autoPolarity = true ∧ within (complementDistance r y.lastDistance) r.searchTol = true
    (y.exhausted = true ∨ ¬matched ∧ ¬flipped →
      exec (.bitClock ch bit) s = .next (u0.modSync ch fun _ => y).arbitrate)
      ∧ (y.exhausted = false → matched → ∃ u : State, exec (.bitClock ch bit) s = .next u.arbitrate ∧ KeepsBut ch s u
        ∧ u.chan ch = { u0.chan ch with
            sync := { y with state := .check, position := 0, checkCount := 0, missCount := 0 } }
        ∧ u.port.waiting (.statusWrite ch) = true)
      ∧ (y.exhausted = false → ¬matched → flipped →
        ∃ u : State, exec (.bitClock ch bit) s = .next u.arbitrate ∧ KeepsBut ch s u
          ∧ u.chan ch = { u0.chan ch with
              sync := { y with
                state := .check, position := 0, checkCount := 0, missCount := 0, inverted := !y.inverted
                history := y.history.map not, spill := y.spill.map not
                lastDistance := complementDistance r y.lastDistance }
              stats := { (u0.chan ch).stats with
                counters := { (u0.chan ch).stats.counters with
                  polarityFlips := saturate (s.chan ch).stats.counters.polarityFlips 1 } } }
          ∧ u0.Reports u [(some ch, .polarityFlip (!y.inverted))] ∧ u.port.waiting (.statusWrite ch) = true)

/-- CHECK_DECISION: a success below check_count, the success that completes CHECK and begins the first frame of a lock, or a
failure, which returns to SEARCH; each followed by the boundary and the sampling point (R9, R10, R16, R19). The success that would
begin a frame once the frame numbers are used up returns to SEARCH as well (R18); in CHECK there is no lock to lose (R24). That
the command is the bit clock under another name (log 2), the counts in SEARCH (log 18), and the order of monitor, decision, held
program, slot sample and judgement (log 5) are the model's. The boundary is where a program held for it applies, and the slot is
then sampled, unless a slot read is outstanding (R71, R74, R85). -/
def Obligations.CheckDecision : Prop :=
  (∀ (ch : Chan) (s : State),
    let t := s.takeHeldFraming ch
    (t.port.outstanding (.slotRead ch) = true → s.boundary ch = t)
      ∧ (t.port.outstanding (.slotRead ch) = false → s.boundary ch = t.request (.slotRead ch))
      ∧ (s.boundary ch).port.outstanding (.slotRead ch) = true)
  ∧ ∀ (ch : Chan) (bit : Bool) (r : RunProgram) (s : State), s.resetHeld = false → (s.chan ch).prog.input = .line →
    (s.chan ch).monitor.evaluating = true → (s.chan ch).monitor.state ≠ .noclock →
    (s.chan ch).prog.settings = some r → (s.chan ch).sync.state = .check → (s.chan ch).sync.heldOpen = none →
    (s.chan ch).sync.position + 1 = r.frameLength →
    let u0 := s.monitorClock ch bit
    let y := (s.chan ch).sync.take r bit
    exec (.bitClock ch bit) s = exec (.checkDecision ch bit) s
      ∧ (within y.lastDistance r.checkTol = true → y.checkCount + 1 < r.checkCount →
        exec (.checkDecision ch bit) s = .next
          ((u0.modSync ch fun _ => { y with checkCount := y.checkCount + 1, position := 0 }).boundary ch).arbitrate)
      ∧ (within y.lastDistance r.checkTol = false ∨ r.checkCount ≤ y.checkCount + 1 ∧ y.exhausted = true →
        ∃ u : State, exec (.checkDecision ch bit) s = .next (u.boundary ch).arbitrate ∧ KeepsBut ch s u
          ∧ u.chan ch = { u0.chan ch with
              sync := { y with state := .search, position := 0, checkCount := 0, missCount := 0, heldOpen := none } }
          ∧ u.events = u0.events ∧ u.port.waiting (.statusWrite ch) = true)
      ∧ (∀ d, y.lastDistance = some d → d ≤ r.checkTol → r.checkCount ≤ y.checkCount + 1 → y.exhausted = false →
        ∃ u : State, exec (.checkDecision ch bit) s = .next (((u.boundary ch).frameJudged ch
              (y.frame ⟨.first, 0, d⟩ s.timebase) (y.frameBits r.syncLength 0)).arbitrate) ∧ KeepsBut ch s u
          ∧ u.chan ch = { u0.chan ch with
              sync := y.begin ⟨.first, 0, d⟩
              capture := { (s.chan ch).capture with phase := 0 }
              stats := { (u0.chan ch).stats with
                counters := { (u0.chan ch).stats.counters with
                  framesLocked := saturate (s.chan ch).stats.counters.framesLocked 1 } } }
          ∧ u0.Reports u [(some ch, .lockAcquired y.inverted (y.begin ⟨.first, 0, d⟩).frameNumber)]
          ∧ u.port.waiting (.statusWrite ch) = true)

/-- LOCK_DECISION: the exact position accepted, left open for the late position, or missed, which begins a flywheel frame or loses
the lock (R11, R13 to R16, R20, R24); a change between LOCK and FLYWHEEL requests a slot status write (R30). Once the frame
numbers are used up a decision that would begin a frame loses the lock instead (R18); an accepted one then counts its distance
(log 17). That the command is the bit clock under another name (log 2), the order of monitor, decision, held program, slot sample
and judgement (log 5), and the counts in SEARCH (log 18) are the model's. `z` is the state once the monitor has counted the bit
clock and the bit is taken and handed on for the frame in progress (R5, R17). -/
def Obligations.LockDecision : Prop :=
  ∀ (ch : Chan) (bit : Bool) (r : RunProgram) (s : State), s.resetHeld = false → (s.chan ch).prog.input = .line →
    (s.chan ch).monitor.evaluating = true → (s.chan ch).monitor.state ≠ .noclock →
    (s.chan ch).prog.settings = some r →
    (s.chan ch).sync.state = .lock ∨ (s.chan ch).sync.state = .flywheel → (s.chan ch).sync.heldOpen = none →
    (s.chan ch).sync.position + 1 = r.frameLength →
    let y := (s.chan ch).sync.take r bit
    let c := (s.chan ch).stats.counters
    let z := ((s.monitorClock ch bit).modSync ch fun _ => y).captureBit ch (r.syncLength - 1 + y.position) (bit != y.inverted)
    let moved (x : State) (sync : Synchronizer) (frames flywheels errors losses slips : Word) : Prop :=
      x.chan ch = { z.chan ch with
        sync := sync
        stats := { (z.chan ch).stats with
          counters := { (z.chan ch).stats.counters with
            framesLocked := frames, flywheelFrames := flywheels, syncBitErrors := errors, losses := losses, slips := slips } } }
    let misses := if y.state = .flywheel then y.missCount + 1 else 1
    let lost (errors : Word) : Prop := ∃ x u : State, exec (.lockDecision ch bit) s = .next (u.boundary ch).arbitrate
      ∧ KeepsBut ch s u ∧ u = (x.truncate ch).request (.statusWrite ch) ∧ (u.chan ch).capture.fill = none
      ∧ moved x { y with state := .search, position := 0, checkCount := 0, missCount := 0, heldOpen := none }
        c.framesLocked c.flywheelFrames errors (saturate c.losses 1) c.slips
      ∧ (s.monitorClock ch bit).Reports u [(some ch, .lockLost .misses y.frameNumber)]
      ∧ u.port.waiting (.statusWrite ch) = true
    exec (.bitClock ch bit) s = exec (.lockDecision ch bit) s
      ∧ (∀ d, y.lastDistance = some d → d ≤ r.lockTol → y.exhausted = false →
        ∃ u : State, exec (.lockDecision ch bit) s = .next (((u.boundary ch).frameJudged ch
              (y.frame ⟨.exact, 0, d⟩ s.timebase) (y.frameBits r.syncLength 0)).arbitrate) ∧ KeepsBut ch s u
          ∧ u.events = z.events
          ∧ moved u (y.begin ⟨.exact, 0, d⟩) (saturate c.framesLocked 1) c.flywheelFrames (saturate c.syncBitErrors d)
            c.losses c.slips
          ∧ (y.state = .flywheel → u.port.waiting (.statusWrite ch) = true))
      ∧ (within y.lastDistance r.lockTol = false → r.slipWindow = 1 →
        exec (.lockDecision ch bit) s = .next (z.modSync ch fun _ =>
            { y with heldOpen := some ⟨y.lastDistance, (s.chan ch).sync.lastDistance⟩ }).arbitrate
          ∧ KeepsBut ch s z)
      ∧ (within y.lastDistance r.lockTol = false → r.slipWindow ≠ 1 → misses ≤ r.flywheelLimit → y.exhausted = false →
        ∃ u : State, exec (.lockDecision ch bit) s = .next (((u.boundary ch).frameJudged ch
              (y.frame ⟨.flywheel, 0, y.lastDistance.getD r.syncLength⟩ s.timebase)
              (y.frameBits r.syncLength 0)).arbitrate) ∧ KeepsBut ch s u
          ∧ u.events = z.events
          ∧ moved u (y.begin ⟨.flywheel, 0, y.lastDistance.getD r.syncLength⟩) (saturate c.framesLocked 1)
            (saturate c.flywheelFrames 1) c.syncBitErrors c.losses c.slips
          ∧ (y.state = .lock → u.port.waiting (.statusWrite ch) = true))
      ∧ (within y.lastDistance r.lockTol = false → r.slipWindow ≠ 1 → r.flywheelLimit < misses ∨ y.exhausted = true →
        lost c.syncBitErrors)
      ∧ ∀ d, y.lastDistance = some d → d ≤ r.lockTol → y.exhausted = true → lost (saturate c.syncBitErrors d)

/-- LATE_POSITION_DECISION: a decision held open is completed at the early position, at the late position, or as a miss anchored
at the exact position, in this order (R12 to R16, R20); a change between LOCK and FLYWHEEL requests a slot status write (R30).
Once the frame numbers are used up a decision that would begin a frame loses the lock instead (R18); an accepted slip then counts
its distance and itself (log 17). That the command is the bit clock under another name (log 2), the order of monitor, decision,
held program, slot sample and judgement (log 5), and the counts in SEARCH (log 18) are the model's. `z` is the state once the
monitor has counted the bit clock and the bit is taken and handed on for the frame in progress (R5, R17). -/
def Obligations.LatePositionDecision : Prop :=
  ∀ (ch : Chan) (bit : Bool) (r : RunProgram) (h : HeldDecision) (s : State), s.resetHeld = false →
    (s.chan ch).prog.input = .line → (s.chan ch).monitor.evaluating = true → (s.chan ch).monitor.state ≠ .noclock →
    (s.chan ch).prog.settings = some r →
    (s.chan ch).sync.state = .lock ∨ (s.chan ch).sync.state = .flywheel → (s.chan ch).sync.heldOpen = some h →
    (s.chan ch).sync.position = r.frameLength →
    let y := (s.chan ch).sync.take r bit
    let c := (s.chan ch).stats.counters
    let z := ((s.monitorClock ch bit).modSync ch fun _ => y).captureBit ch (r.syncLength - 1 + y.position) (bit != y.inverted)
    let moved (x : State) (sync : Synchronizer) (frames flywheels errors losses slips : Word) : Prop :=
      x.chan ch = { z.chan ch with
        sync := sync
        stats := { (z.chan ch).stats with
          counters := { (z.chan ch).stats.counters with
            framesLocked := frames, flywheelFrames := flywheels, syncBitErrors := errors, losses := losses, slips := slips } } }
    let misses := if y.state = .flywheel then y.missCount + 1 else 1
    let early := r.slipWindow = 1 ∧ within h.early r.lockTol = true
    let late := r.slipWindow = 1 ∧ within y.lastDistance r.lockTol = true
    let slipped (k : FrameStart) : Prop :=
      early ∧ k = ⟨.early, 2, h.early.getD 0⟩ ∨ ¬early ∧ late ∧ k = ⟨.late, 0, y.lastDistance.getD 0⟩
    let lost (errors slips : Word) : Prop :=
      ∃ x u : State, exec (.latePositionDecision ch bit) s = .next (u.boundary ch).arbitrate ∧ KeepsBut ch s u
        ∧ u = (x.truncate ch).request (.statusWrite ch) ∧ (u.chan ch).capture.fill = none
        ∧ moved x { y with state := .search, position := 0, checkCount := 0, missCount := 0, heldOpen := none }
          c.framesLocked c.flywheelFrames errors (saturate c.losses 1) slips
        ∧ (s.monitorClock ch bit).Reports u [(some ch, .lockLost .misses y.frameNumber)]
        ∧ u.port.waiting (.statusWrite ch) = true
    exec (.bitClock ch bit) s = exec (.latePositionDecision ch bit) s
      ∧ (∀ k : FrameStart, y.exhausted = false → slipped k →
        ∃ u : State, exec (.latePositionDecision ch bit) s = .next (((u.boundary ch).frameJudged ch
              (y.frame k s.timebase) (y.frameBits r.syncLength k.position)).arbitrate) ∧ KeepsBut ch s u
          ∧ u.events = z.events
          ∧ moved u (y.begin k) (saturate c.framesLocked 1) c.flywheelFrames (saturate c.syncBitErrors k.distance) c.losses
            (saturate c.slips 1)
          ∧ (y.state = .flywheel → u.port.waiting (.statusWrite ch) = true))
      ∧ (¬early → ¬late → misses ≤ r.flywheelLimit → y.exhausted = false →
        ∃ u : State, exec (.latePositionDecision ch bit) s = .next (((u.boundary ch).frameJudged ch
              (y.frame ⟨.flywheel, 1, h.exact.getD r.syncLength⟩ s.timebase)
              (y.frameBits r.syncLength 1)).arbitrate) ∧ KeepsBut ch s u
          ∧ u.events = z.events
          ∧ moved u (y.begin ⟨.flywheel, 1, h.exact.getD r.syncLength⟩) (saturate c.framesLocked 1)
            (saturate c.flywheelFrames 1) c.syncBitErrors c.losses c.slips
          ∧ (y.state = .lock → u.port.waiting (.statusWrite ch) = true))
      ∧ (¬early → ¬late → r.flywheelLimit < misses ∨ y.exhausted = true → lost c.syncBitErrors c.slips)
      ∧ ∀ k : FrameStart, y.exhausted = true → slipped k → lost (saturate c.syncBitErrors k.distance) (saturate c.slips 1)

/-! ## Device Control: the header, faults and the drain -/

/-- The header read of STARTING completes with OKAY. A valid header gives the session its parameters and the journal its marks;
the device enters RUNNING, its monitors begin in ACTIVE, and the first writes and reads are requested, the slot reads from CH0 to
CH7 and then the test sample read; then the device looks at CTRL.RUN (R34, R135, R186, R188, R189). A header that is not valid
puts the device into FAULTED with BAD_HEADER, each block in the condition it holds (R193; log 34). -/
def Obligations.HeaderRead : Prop :=
  ∀ (bytes : List Byte) (w : Transaction) (s : State), s.Inv → s.Answering .headerRead w → s.device = .starting →
    bytes.length = w.length →
    let p := (Header.parse bytes).params
    let release := wordAt bytes 28
    let valid := wordAt bytes 0 = 1 ∧ 1 ≤ p.idlePollMs.toNat ∧ p.idlePollMs.toNat ≤ 255
      ∧ 1 ≤ p.journalThreshold.toNat ∧ p.journalThreshold.toNat ≤ 255 ∧ p.holdoffUs.toNat ≤ 65535
      ∧ p.journalBase.toNat < 2 ^ 48 ∧ p.journalBase.toNat % 4096 = 0
      ∧ ∃ k, 12 ≤ k ∧ k ≤ 20 ∧ p.journalSize.toNat = 2 ^ k
    p = { idlePollMs := halfAt bytes 8, journalThreshold := halfAt bytes 10, holdoffUs := wordAt bytes 12,
          journalBase := dwordAt bytes 16, journalSize := wordAt bytes 24, timebaseOnStrt := (wordAt bytes 4).getLsbD 0 }
      ∧ (valid → ∃ u : State, exec (.headerReadComplete (.okay bytes)) s = .next u.followRun.settle.regrant
        ∧ u.device = .running ∧ u.faultCode = s.faultCode ∧ u.frozen = s.frozen ∧ u.sessionBase = s.sessionBase
        ∧ u.params = p ∧ (s.regs.run = true → u.followRun = u)
        ∧ (s.regs.run = false → exec (.ctrlRun false) u = .next u.followRun.arbitrate)
        ∧ u.idlePoll = some 0 ∧ u.timebase = s.timebase ∧ u.regs = s.regs ∧ u.test = s.test ∧ u.mem = s.mem
        ∧ u.events.writeMark = release ∧ u.events.acceptedRelease = release ∧ u.events.published = release
        ∧ u.events.noticed = release
        ∧ (s.events.queue.length < 16 →
          u.events.queue = s.events.queue ++ [⟨none, .deviceState .running, s.timebase⟩])
        ∧ (∀ ch, u.chan ch = { s.chan ch with
            monitor :=
              { state := .active, evaluating := true, lastBit := none, quietRun := 0, windowPosition := 0,
                windowTransitions := 0, recovery := 0, gap := some 0 } })
        ∧ u.port.waiting .mirrorWrite = true ∧ u.port.waiting .journalMark = true
        ∧ (∀ ch, u.port.waiting (.slotRead ch) = true) ∧ u.port.waiting .testSample = true)
      ∧ (valid → s.port.classB = [] → s.events.placement = .idle → ∃ (t : State) (later : List Request),
        exec (.headerReadComplete (.okay bytes)) s = .next t
          ∧ t.port.classB = allChans.map .slotRead ++ .testSample :: later)
      ∧ (¬valid → ∃ u : State, exec (.headerReadComplete (.okay bytes)) s = .next u ∧ s.Faults u .badHeader
        ∧ u.mem = s.mem)

/-- The requests whose ERROR faults the device, each with its fault code (R182, R183). Every block stops in the condition it
holds, what it had outstanding included (R70, R135, R152, R160, R193; log 34), and stays in it: until a reset makes the device
DORMANT, a command changes the timebase and the registers at most (R70, R193). The image of memory changes at bytes of the failed
write only (R174). -/
def Obligations.FaultingErrors : Prop :=
  (∀ (r : Request) (code : FaultCode) (w : Transaction) (s : State), s.Answering r w →
    (code = .slotAccess ∧ ∃ ch, r = .slotRead ch ∨ r = .generationWrite ch ∨ r = .statusWrite ch ∨ r = .markWrite ch
        ∨ r = .servedWrite ch)
      ∨ (code = .headerAccess ∧ (r = .headerRead ∨ r = .testSample ∨ r = .testStatus ∨ r = .journalMark
        ∨ r = .mirrorWrite))
      ∨ (code = .journalAccess ∧ r = .journalRecord) →
    ∃ u : State, exec r.failure s = .next u ∧ s.Faults u code
      ∧ ∀ a, (∀ i, i < w.data.length → busAddress (w.address + i) ≠ a) → Memory.read u.mem a = Memory.read s.mem a)
    ∧ ∀ (c : Instr) (s : State), s.Still →
      ∃ t, exec c s = .next t ∧ (t.device = .dormant ∨ t = { s with timebase := t.timebase, regs := t.regs })

/-- When a channel's writeback is settled (R133), and what becomes due then: a program held for a run start (R60, R85), and the
end of a drain (R192), after which the device is STOPPED or, if CTRL.RUN is 1, STARTING (R186). They are looked for at the end of
every response, and the end of a drain at the entry to DRAINING as well (log 3): what is due then comes about, held run starts in
the order CH0 to CH7 (log 32), and when nothing is due nothing changes. -/
def Obligations.WritebackSettled : Prop :=
  ∀ s : State,
    (∀ ch, s.settled ch = true ↔ (s.chan ch).capture.queue = [] ∧ (s.chan ch).wb.placement = .idle
        ∧ (s.chan ch).wb.spell = none ∧ s.port.outstanding (.recordBurst ch) = false
        ∧ s.port.outstanding (.markWrite ch) = false)
      ∧ ((s.device = .running → ∀ ch, (s.chan ch).prog.runState = .halted ∨ (s.chan ch).prog.runState = .failed →
          (s.chan ch).prog.held = none ∨ s.settled ch = false) →
        (s.device = .draining → ∃ ch, s.settled ch = false) → s.settle = s)
      ∧ (s.device = .running → s.settle = allChans.foldl (init := s) fun t ch =>
        match (t.chan ch).prog.held with
        | none => t
        | some p =>
          if ((t.chan ch).prog.runState = .halted ∨ (t.chan ch).prog.runState = .failed) ∧ t.settled ch = true then
            (t.modProg ch fun q => { q with held := none }).apply ch p
          else t)
      ∧ (s.device = .draining → s.drainCheck = s.settle)
      ∧ (∀ ch p, s.resetHeld = false → s.device = .running →
        (s.chan ch).prog.runState = .halted ∨ (s.chan ch).prog.runState = .failed → (s.chan ch).prog.held = some p →
        s.settled ch = true →
        exec (.writebackSettled ch) s = .next ((s.modProg ch fun q => { q with held := none }).apply ch p).arbitrate)
      ∧ (s.resetHeld = false → s.Inv → s.device = .draining → (∀ ch, s.settled ch = true) →
        (s.regs.run = false → ∃ u : State, exec .drainEnd s = .next u.arbitrate ∧ u = s.settle ∧ u.device = .stopped
          ∧ u.regs = { s.regs with irqPend := s.regs.irqPend ||| 0x400 }
          ∧ s.Reports u [(none, .deviceState .stopped)] ∧ u.port.waiting .mirrorWrite = true
          ∧ (∀ ch, u.chan ch = { s.chan ch with monitor := { (s.chan ch).monitor with evaluating := false } })
          ∧ u.test = s.test ∧ u.mem = s.mem ∧ u.timebase = s.timebase ∧ u.sessionBase = s.sessionBase
          ∧ u.params = s.params ∧ u.idlePoll = s.idlePoll ∧ u.faultCode = s.faultCode ∧ u.frozen = s.frozen)
        ∧ (s.regs.run = true → ∃ u : State, exec .drainEnd s = .next u.arbitrate ∧ u = s.settle ∧ u.device = .starting
          ∧ u.regs = { s.regs with irqPend := s.regs.irqPend ||| 0x400 }
          ∧ u.sessionBase = s.regs.cpbaseHi.toNat * 2 ^ 32 + s.regs.cpbaseLo.toNat
          ∧ (∀ ch, u.chan ch = Channel.reset) ∧ u.events = .reset ∧ u.test = .reset ∧ u.idlePoll = none
          ∧ u.faultCode = .none ∧ u.frozen = ⟨[], none⟩
          ∧ u.port.waiting .headerRead = true ∧ u.mem = s.mem ∧ u.timebase = s.timebase))

/-! ## Time -/

/-- A tick (R200; log 6). The timebase and every running timer count it. When no timer reaches its value, nothing else changes.
When one timer reaches its value, and no other does, the tick acts as that timer's expiry on the state counted: a gap timer at the
clock timeout (R37), a capture or a journal holdoff timer at holdoff_us (R130, R147), the idle-poll timer at its period (R190),
the response timer at 650 µs (R180). A gap timer runs while its monitor evaluates, and does not expire in NOCLOCK (log 8). -/
def Obligations.Tick : Prop :=
  ∀ s : State, s.resetHeld = false → s.Inv →
    let counted : State :=
      { s with
        timebase := if s.timebase = 0xFFFFFFFFFFFFFFFF then s.timebase else s.timebase + 1
        chans := s.chans.map fun c =>
          { c with
            monitor :=
              { c.monitor with
                gap := if c.monitor.evaluating then c.monitor.gap.map (· + 1) else c.monitor.gap }
            wb := { c.wb with holdoff := c.wb.holdoff.map (· + 1) } }
        events := { s.events with holdoff := s.events.holdoff.map (· + 1) }
        idlePoll := s.idlePoll.map (· + 1)
        port := { s.port with timer := s.port.timer.map (· + 1) } }
    let gap (ch : Chan) : Prop := (s.chan ch).monitor.evaluating = true ∧ (s.chan ch).monitor.state ≠ .noclock
      ∧ ∃ g, (s.chan ch).monitor.gap = some g ∧ 10 * (s.chan ch).prog.clockTimeout ≤ g + 1
    let capture (ch : Chan) : Prop := ∃ n, (s.chan ch).wb.holdoff = some n ∧ 10 * s.params.holdoffUs.toNat ≤ n + 1
    let journal : Prop := ∃ n, s.events.holdoff = some n ∧ 10 * s.params.holdoffUs.toNat ≤ n + 1
    let poll : Prop := ∃ n, s.idlePoll = some n ∧ 10000 * s.params.idlePollMs.toNat ≤ n + 1
    let response : Prop := ∃ n, s.port.timer = some n ∧ 6500 ≤ n + 1
    let tick := exec .timebaseTick s
    ((∀ c, ¬gap c) → (∀ c, ¬capture c) → ¬journal → ¬poll → ¬response → tick = .next counted)
      ∧ (∀ ch, gap ch → (∀ c, c ≠ ch → ¬gap c) → (∀ c, ¬capture c) → ¬journal → ¬poll → ¬response →
        tick = exec (.gapTimerExpiry ch) counted)
      ∧ (∀ ch, (∀ c, ¬gap c) → capture ch → (∀ c, c ≠ ch → ¬capture c) → ¬journal → ¬poll → ¬response →
        tick = exec (.captureHoldoffExpiry ch) counted)
      ∧ ((∀ c, ¬gap c) → (∀ c, ¬capture c) → journal → ¬poll → ¬response → tick = exec .journalHoldoffExpiry counted)
      ∧ ((∀ c, ¬gap c) → (∀ c, ¬capture c) → ¬journal → poll → ¬response → tick = exec .idlePollExpiry counted)
      ∧ ((∀ c, ¬gap c) → (∀ c, ¬capture c) → ¬journal → ¬poll → response → tick = exec .responseTimeout counted)

/-! ## The memory port -/

/-- The grant: none while a transaction is in flight or nothing waits; otherwise to the oldest of class A, then of class B, then
by round robin to class C, except that class C goes first when the guard count stands at 8; and the guard count, the
round-robin pointer and the response timer follow (R177 to R180). -/
def Obligations.Grant : Prop :=
  ∀ s : State, s.port.Sorted →
    let p := s.port
    let bursts := ∃ ch, p.classC.get ch = true
    (p.inFlight ≠ none ∨ (∀ r, p.waiting r = false) → s.grant = s)
      ∧ (p.inFlight = none → ¬(p.guard = 8 ∧ bursts) → ∀ r rest, p.classA = r :: rest → ∃ g, s.grant =
          { s with port := { p with
              classA := rest, guard := g, inFlight := some (s.transaction r), timer := some 0 } }
        ∧ (bursts → g = min 8 (p.guard + 1)) ∧ (¬bursts → g = 0))
      ∧ (p.inFlight = none → ¬(p.guard = 8 ∧ bursts) → p.classA = [] → ∀ r rest, p.classB = r :: rest → ∃ g,
        s.grant = { s with port := { p with
              classB := rest, guard := g, inFlight := some (s.transaction r), timer := some 0 } }
        ∧ (bursts → g = min 8 (p.guard + 1)) ∧ (¬bursts → g = 0))
      ∧ (p.inFlight = none → p.guard = 8 ∨ p.classA = [] ∧ p.classB = [] →
        ∀ k, k < 8 → p.classC.get (Nat.repeat chanAfter k p.roundRobin) = true →
          (∀ j, j < k → p.classC.get (Nat.repeat chanAfter j p.roundRobin) = false) →
          let ch := Nat.repeat chanAfter k p.roundRobin
          s.grant = { s with port := { p with
              classC := p.classC.set ch false, guard := 0, roundRobin := chanAfter ch
              inFlight := some (s.transaction (.recordBurst ch)), timer := some 0 } })

/-- The class of each request (R175), and what the requests made by one command do when the command ends. A request of a kind that
waits already is not queued again; one that finds the port busy joins its queue or its place (R176). One that finds the port idle,
with nothing waiting, is issued at once (R177), and since no class C request waits the guard count is then 0 (R179). Two requests
of one command are taken as if each came by itself, the earlier first; at a completion all of them join before the one grant,
which is the model's choice where R177 leaves it open (log 4). -/
def Obligations.Arrivals : Prop :=
  (∀ r : Request,
    (r.classOf = .a ↔ r = .mirrorWrite ∨ r = .journalRecord ∨ r = .journalMark ∨ r = .testStatus
        ∨ ∃ ch, r = .statusWrite ch ∨ r = .generationWrite ch ∨ r = .markWrite ch ∨ r = .blockWrite ch
          ∨ r = .servedWrite ch)
      ∧ (r.classOf = .b ↔ r = .headerRead ∨ r = .journalReRead ∨ r = .testSample ∨ r = .blockFetch
        ∨ ∃ ch, r = .slotRead ch ∨ r = .fetchFixed ch ∨ r = .fetchTail ch ∨ r = .reRead ch)
      ∧ (r.classOf = .c ↔ ∃ ch, r = .recordBurst ch))
  ∧ ∀ (r q : Request) (s : State), s.port.Sorted → s.port.arrivals = [] →
    let p := s.port
    let joined : Port := match r with
      | .recordBurst ch => { p with classC := p.classC.set ch true }
      | _ => if r.classOf = .a then { p with classA := p.classA ++ [r] } else { p with classB := p.classB ++ [r] }
    (p.inFlight ≠ none → p.waiting r = true → (s.request r).arbitrate = s)
      ∧ (p.inFlight ≠ none → p.waiting r = false → (s.request r).arbitrate = { s with port := joined })
      ∧ (p.inFlight = none → (∀ x, p.waiting x = false) → (s.request r).arbitrate = { s with port := { p with
          inFlight := some (s.transaction r), timer := some 0, guard := 0
          roundRobin := match r with
            | .recordBurst ch => chanAfter ch
            | _ => p.roundRobin } })
      ∧ ((s.request r).request q).arbitrate = ((s.request r).arbitrate.request q).arbitrate
      ∧ (p.waiting r = false → (s.request r).regrant = ({ s with port := joined } : State).grant)

/-- Where each request's transaction goes, how long it is, and what a write carries (R30, R90, R123, R128, R143, R145, R155, R157,
R167, R174, R176, R194, R203; sections 10.1, 12.1, 12.2). An address of 2^48 or more is the exact number, which is the model's
choice (log 12). -/
def Obligations.Transactions : Prop :=
  ∀ (ch : Chan) (s : State),
    let base := s.sessionBase
    let slot := s.sessionBase + 256 + 256 * chanNumber ch
    let c := s.chan ch
    let t := s.transaction
    (∀ r : Request, (t r).request = r ∧ (r.isWrite = true → (t r).length = (t r).data.length)
        ∧ (r.isWrite = false → (t r).data = []))
      ∧ ((t .headerRead).address = base ∧ (t .headerRead).length = 256)
      ∧ ((t (.slotRead ch)).address = slot ∧ (t (.slotRead ch)).length = 32)
      ∧ ((t (.reRead ch)).address = slot + 24 ∧ (t (.reRead ch)).length = 4)
      ∧ ((t .journalReRead).address = base + 28 ∧ (t .journalReRead).length = 4)
      ∧ ((t .testSample).address = base + 32 ∧ (t .testSample).length = 12)
      ∧ (∀ f, c.prog.fetch = some f →
        (t (.fetchFixed ch)).address = f.pointer.toNat ∧ (t (.fetchFixed ch)).length = 48)
      ∧ (∀ f, s.test.fetch = some f → (t .blockFetch).address = f.pointer.toNat ∧ (t .blockFetch).length = 40)
      ∧ ((t .mirrorWrite).address = base + 91 ∧ (t .mirrorWrite).data = [BitVec.ofNat 8 (deviceCode s.device)])
      ∧ (let d := (t (.generationWrite ch)).data
        (t (.generationWrite ch)).address = slot + 64 ∧ d.length = 10 ∧ wordAt d 0 = c.prog.adopted
          ∧ wordAt d 4 = c.prog.rejected ∧ halfAt d 8 = BitVec.ofNat 16 (rejectCode c.prog.rejectReason))
      ∧ ((t (.statusWrite ch)).address = slot + 74 ∧ (t (.statusWrite ch)).data =
        [BitVec.ofNat 8 (runStateCode c.prog.runState),
          if c.prog.runState = .running then BitVec.ofNat 8 (syncStateCode c.sync.state) else 0,
          BitVec.ofNat 8 (activityCode c.monitor.state), c.prog.runIndex, if c.sync.inverted then 1 else 0])
      ∧ (let d := (t (.markWrite ch)).data
        (t (.markWrite ch)).address = slot + 80 ∧ d.length = 8 ∧ wordAt d 0 = c.wb.writeMark
          ∧ wordAt d 4 = c.wb.acceptedRelease)
      ∧ ((t (.servedWrite ch)).address = slot + 88 ∧ (t (.servedWrite ch)).data.length = 2
        ∧ halfAt (t (.servedWrite ch)).data 0 = c.stats.served)
      ∧ (∀ n, c.stats.latch = some n →
        let d := (t (.blockWrite ch)).data
        (t (.blockWrite ch)).address = slot + 128 ∧ d.length = 76 ∧ dwordAt d 0 = n.time
          ∧ dwordAt d 8 = n.counters.bytesWritten ∧ wordAt d 16 = n.counters.framesLocked
          ∧ wordAt d 20 = n.counters.framesCaptured ∧ wordAt d 24 = n.counters.flywheelFrames
          ∧ wordAt d 28 = n.counters.syncBitErrors ∧ wordAt d 32 = n.counters.losses ∧ wordAt d 36 = n.counters.slips
          ∧ wordAt d 40 = n.counters.polarityFlips ∧ wordAt d 44 = n.counters.dropsNoroom
          ∧ wordAt d 48 = n.counters.dropsStall ∧ wordAt d 52 = n.counters.truncatedRecords
          ∧ wordAt d 56 = n.counters.tornReads ∧ wordAt d 60 = n.counters.quietEntries
          ∧ wordAt d 64 = n.counters.noclockEntries ∧ wordAt d 68 = n.counters.badReleases
          ∧ wordAt d 72 = n.counters.recordsWritten)
      ∧ (let d := (t .journalMark).data
        (t .journalMark).address = base + 64 ∧ d.length = 16 ∧ wordAt d 0 = s.events.writeMark
          ∧ wordAt d 4 = s.events.acceptedRelease ∧ wordAt d 8 = s.events.droppedTotal
          ∧ wordAt d 12 = s.events.badReleases)
      ∧ (let d := (t .testStatus).data
        (t .testStatus).address = base + 80 ∧ d.length = 11 ∧ wordAt d 0 = s.test.adopted ∧ wordAt d 4 = s.test.rejected
          ∧ halfAt d 8 = BitVec.ofNat 16 (testRejectCode s.test.rejectReason)
          ∧ byteAt d 10 = if s.test.state = .running then 1 else 0)
      ∧ (∀ g b rest, c.wb.placement = .writing g (b :: rest) →
        (t (.recordBurst ch)).address = b.address ∧ (t (.recordBurst ch)).data = b.bytes)
      ∧ ∀ r : JournalRecord, s.events.placement = .writing r →
        let before := s.params.journalSize.toNat - r.offset
        (r.secondPart = false → (t .journalRecord).address = s.params.journalBase.toNat + r.offset
          ∧ (t .journalRecord).data = r.bytes.take before)
          ∧ (r.secondPart = true → (t .journalRecord).address = s.params.journalBase.toNat
            ∧ (t .journalRecord).data = r.bytes.drop before)

/-- The response timer's end completes the transaction in flight as an ERROR response would (R180); with none in flight nothing
happens. That the command acts whatever the timer has counted is the model's choice (log 7). A late response, and a response, OKAY
or ERROR, to a request that is not in flight, changes nothing (R181). -/
def Obligations.TimeoutAndLateResponse : Prop :=
  ∀ (s : State) (r : ReadResponse) (q : Request) (bytes : List Byte),
    (s.port.inFlight = none → exec .responseTimeout s = .next s)
      ∧ (∀ w, s.port.inFlight = some w → exec .responseTimeout s = exec w.request.failure s
        ∧ ∃ u, exec .responseTimeout s = .next u)
      ∧ exec (.lateResponse r) s = .next s
      ∧ ((∀ w, s.port.inFlight = some w → w.request ≠ q) →
        exec q.failure s = .next s ∧ exec (q.success bytes) s = .next s)

/-- Completions whose result nobody acts on. The OKAY of the mirror write, the generation, status and served writes and the test
status write only places their bytes in memory (R174, R180). A transaction that was in flight at an entry to STARTING completes
with any response, and beyond its bytes in memory the response has no effect (R174, R184). -/
def Obligations.QuietCompletions : Prop :=
  ∀ (ch : Chan) (w : Transaction) (bytes : List Byte) (s : State),
    let elsewhere (u : State) : Prop :=
      ∀ a, (∀ i, i < w.data.length → busAddress (w.address + i) ≠ a) → Memory.read u.mem a = Memory.read s.mem a
    (∃ u : State,
      (s.Answering .mirrorWrite w → exec (.mirrorWriteComplete .okay) s = .next u.settle.regrant)
        ∧ (s.Answering (.generationWrite ch) w → exec (.generationWriteComplete ch .okay) s = .next u.settle.regrant)
        ∧ (s.Answering (.statusWrite ch) w → exec (.statusWriteComplete ch .okay) s = .next u.settle.regrant)
        ∧ (s.Answering (.servedWrite ch) w → exec (.servedWriteComplete ch .okay) s = .next u.settle.regrant)
        ∧ (s.Answering .testStatus w → exec (.testStatusWriteComplete .okay) s = .next u.settle.regrant)
        ∧ (s.resetHeld = false → s.port.inFlight = some w → w.orphan = true →
          (w.request.isWrite = false → bytes.length = w.length) →
          exec (w.request.success bytes) s = .next u.settle.regrant)
        ∧ u = { s with mem := u.mem, port := { s.port with inFlight := none, timer := none } }
        ∧ s.freePort = { s with port := { s.port with inFlight := none, timer := none } } ∧ u = s.freePort.placeBytes w
        ∧ (w.address + w.data.length ≤ 2 ^ 48 →
          ∀ i b, w.data[i]? = some b → Memory.read u.mem (w.address + i) = some b)
        ∧ elsewhere u)
      ∧ (s.resetHeld = false → s.port.inFlight = some w → w.orphan = true →
        ∃ u : State, exec w.request.failure s = .next u.settle.regrant
          ∧ u = { s with
              mem := u.mem, freeCount := u.freeCount, port := { s.port with inFlight := none, timer := none } }
          ∧ u = s.freePort.spoilBytes w
          ∧ elsewhere u)

/-! ## Program adoption -/

/-- A slot read: the slot values are kept, the release mark and the statistics request are offered, and, in RUNNING, the
generation is examined (R75). A generation that is new when no fetch is in flight starts a fetch, or is refused with ADDRESS
(R54, R76, R83). -/
def Obligations.SlotRead : Prop :=
  (∀ (ch : Chan) (bytes : List Byte) (w : Transaction) (s : State), s.Inv → s.Answering (.slotRead ch) w →
    bytes.length = w.length →
    let t := (((s.freePort.modProg ch fun p =>
      { p with latestAreaBase := dwordAt bytes 12, latestAreaSize := wordAt bytes 20, latestRelease := wordAt bytes 24 }
      ).offerRelease ch (wordAt bytes 24)).offerStats ch (halfAt bytes 28) ((halfAt bytes 30).getLsbD 0))
    (s.device = .running → exec (.slotReadComplete ch (.okay bytes)) s
        = .next (t.examine ch (wordAt bytes 0) (dwordAt bytes 4)).settle.regrant)
      ∧ (s.device ≠ .running → exec (.slotReadComplete ch (.okay bytes)) s = .next t.settle.regrant))
  ∧ ∀ (ch : Chan) (generation : Word) (pointer : Dword) (s : State),
    let p := (s.chan ch).prog
    let u := s.examine ch generation pointer
    let new := generation ≠ 0 ∧ generation ≠ p.adopted ∧ generation ≠ p.rejected
      ∧ ∀ q, p.held = some q → q.generation ≠ generation
    let usable := pointer.toNat < 2 ^ 48 ∧ pointer.toNat % 8 = 0
    (¬new ∨ p.fetch ≠ none → u = s)
      ∧ (new → p.fetch = none → usable →
        u = (s.modProg ch fun p => { p with fetch := some ⟨generation, pointer, none⟩ }).request (.fetchFixed ch))
      ∧ (new → p.fetch = none → ¬usable → KeepsBut ch s u
        ∧ u.chan ch = { s.chan ch with prog := { p with rejected := generation, rejectReason := .address } }
        ∧ s.Reports u [(some ch, .programRejected .address generation)]
        ∧ u.port.waiting (.generationWrite ch) = true)

/-- The first read of a fetch: its bytes are kept, and the second read is requested, at the place and of the length that kind and
window_count name (R77). A read of either part that fails ends the fetch, and in RUNNING the program is refused with
FETCH_ERROR (R80, R81). An address of 2^48 or more is the exact number, which is the model's choice (log 12). -/
def Obligations.FetchReads : Prop :=
  ∀ (ch : Chan) (w : Transaction) (s : State), s.Inv →
    (∀ bytes, s.Answering (.fetchFixed ch) w → bytes.length = w.length →
      exec (.programFetchFixedComplete ch (.okay bytes)) s = .next ((s.freePort.modProg ch fun p =>
        { p with fetch := p.fetch.map fun f => { f with fixedPart := some bytes } }).request (.fetchTail ch)).settle.regrant)
      ∧ (∀ bytes f, (s.chan ch).prog.fetch = some f → f.fixedPart = some bytes →
        let kind := (byteAt bytes 4).toNat
        let windows := (byteAt bytes 6).toNat
        let t := s.transaction (.fetchTail ch)
        (kind = 2 → t.address = f.pointer.toNat + 8 ∧ t.length = 8)
          ∧ (kind ≠ 2 → 1 ≤ windows → windows ≤ 8 → t.address = f.pointer.toNat + 48 ∧ t.length = windows * 8 + 8)
          ∧ (kind ≠ 2 → windows = 0 ∨ 8 < windows → t.address = f.pointer.toNat + 48 ∧ t.length = 8))
      ∧ ∀ c f, s.Answering (.fetchFixed ch) w ∧ c = .programFetchFixedComplete ch .error
            ∨ s.Answering (.fetchTail ch) w ∧ c = .programFetchTailComplete ch .error →
        (s.chan ch).prog.fetch = some f →
        (s.device ≠ .running → exec c s = .next (s.freePort.modProg ch fun p => { p with fetch := none }).settle.regrant)
          ∧ (s.device = .running → ∃ u : State, exec c s = .next u.settle.regrant ∧ KeepsBut ch s.freePort u
            ∧ u.chan ch = { s.chan ch with
                prog := { (s.chan ch).prog with fetch := none, rejected := f.generation, rejectReason := .fetchError } }
            ∧ s.Reports u [(some ch, .programRejected .fetchError f.generation)]
            ∧ u.port.waiting (.generationWrite ch) = true)

/-- The second read of a fetch: discarded outside RUNNING (R81); torn (R78, R79); refused (R52, R83); or valid: it replaces a
program pending (R86), and applies now or is held pending (R60, R84). -/
def Obligations.FetchTail : Prop :=
  ∀ (ch : Chan) (bytes fixedPart : List Byte) (f : Fetch) (w : Transaction) (s : State), s.Inv →
    s.Answering (.fetchTail ch) w → bytes.length = w.length →
    (s.chan ch).prog.fetch = some f → f.fixedPart = some fixedPart →
    let c : Instr := .programFetchTailComplete ch (.okay bytes)
    let p := (s.chan ch).prog
    let t := s.freePort.modProg ch fun p => { p with fetch := none }
    let whole := wordAt fixedPart 0 = f.generation ∧ wordAt bytes (bytes.length - 8) = f.generation
    (s.device ≠ .running → exec c s = .next t.settle.regrant)
      ∧ (s.device = .running → ¬whole → p.tornCount ≠ 3 → exec c s = .next
        ((t.count ch fun n => { n with tornReads := saturate n.tornReads 1 }).modProg ch fun p =>
          { p with tornCount := p.tornCount + 1 }).settle.regrant)
      ∧ (∀ q reason, s.device = .running → whole → parseProgram fixedPart bytes = (q, reason) → reason ≠ .none →
        ∃ u : State, exec c s = .next u.settle.regrant ∧ KeepsBut ch s.freePort u
          ∧ u.chan ch = { s.chan ch with
              prog := { p with fetch := none, tornCount := 0, rejected := q.generation, rejectReason := reason } }
          ∧ s.Reports u [(some ch, .programRejected reason q.generation)]
          ∧ u.port.waiting (.generationWrite ch) = true)
      ∧ ∀ q, s.device = .running → whole → parseProgram fixedPart bytes = (q, .none) →
        let starts := (∃ r, q = .run r) ∧ (p.runState = .idle ∨ p.runState = .halted ∨ p.runState = .failed)
        let framing := p.runState = .running ∧ ((s.chan ch).sync.state = .check ∨ (s.chan ch).sync.state = .lock
          ∨ (s.chan ch).sync.state = .flywheel)
        ∃ u : State, KeepsBut ch s.freePort u
          ∧ u.chan ch = { s.chan ch with prog := { p with fetch := none, tornCount := 0, held := none } }
          ∧ (p.held = none → u.events = s.events)
          ∧ (∀ o, p.held = some o → s.Reports u [(some ch, .programSuperseded o.generation q.generation)])
          ∧ (starts ∧ s.settled ch = true ∨ ¬starts ∧ (q.cut = true ∨ ¬framing) →
            exec c s = .next (u.apply ch q).settle.regrant)
          ∧ (starts ∧ s.settled ch = false ∨ ¬starts ∧ q.cut = false ∧ framing →
            exec c s = .next (u.modProg ch fun p => { p with held := some q }).settle.regrant)

/-- PROGRAM_TORN: the fourth torn fetch in a row is reported and the count returns to 0 (R79). Where the second read brings no
such fetch the command has no effect (log 2). -/
def Obligations.ProgramTorn : Prop :=
  ∀ (ch : Chan) (bytes : List Byte) (w : Transaction) (s : State), s.Inv →
    (∀ f fixedPart, s.Answering (.fetchTail ch) w → bytes.length = w.length → (s.chan ch).prog.fetch = some f →
      f.fixedPart = some fixedPart → s.device = .running → (s.chan ch).prog.tornCount = 3 →
      ¬(wordAt fixedPart 0 = f.generation ∧ wordAt bytes (bytes.length - 8) = f.generation) →
      ∃ u : State, exec (.programTorn ch (.okay bytes)) s = .next u.settle.regrant
        ∧ exec (.programFetchTailComplete ch (.okay bytes)) s = exec (.programTorn ch (.okay bytes)) s
        ∧ KeepsBut ch s.freePort u
        ∧ u.chan ch = { s.chan ch with
            prog := { (s.chan ch).prog with fetch := none, tornCount := 0 }
            stats := { (s.chan ch).stats with
              counters := { (s.chan ch).stats.counters with
                tornReads := saturate (s.chan ch).stats.counters.tornReads 1 } } }
        ∧ s.Reports u [(some ch, .programTorn f.generation)])
      ∧ ((s.chan ch).prog.tornCount ≠ 3 ∨ s.device ≠ .running ∨ (s.chan ch).prog.fetch = none →
        exec (.programTorn ch (.okay bytes)) s = .next s)

/-- What the two reads of a fetch say: where the fields of a RUN and of a HALT program lie (R205), and tests 1 to 13, the first
that fails giving the reject reason (R52, R53). -/
def Obligations.ProgramContents : Prop :=
  ∀ fixedPart bytes : List Byte,
    let kind := (byteAt fixedPart 4).toNat
    let flag (i : Nat) : Bool := (byteAt fixedPart 5).getLsbD i
    let p := RunProgram.parse fixedPart bytes
    let m := (List.range p.syncLength).countP fun i => p.syncMask.getLsbD i
    let limit := if p.slipWindow = 0 then p.frameLength else p.frameLength - 1
    let tests : List (Prop × RejectReason) :=
      [(p.syncLength < 8 ∨ 64 < p.syncLength, .syncLength),
        (m < 8, .syncMask),
        (p.frameLength < p.syncLength + 8 ∨ 65536 < p.frameLength, .frameLength),
        ((7 < p.searchTol ∨ m < 4 * p.searchTol) ∨ (7 < p.checkTol ∨ m < 4 * p.checkTol)
          ∨ (7 < p.lockTol ∨ m < 4 * p.lockTol), .tolerance),
        (p.checkCount = 0 ∨ 15 < p.checkCount, .checkCount),
        (15 < p.flywheelLimit, .flywheelLimit),
        (p.slipWindow ≠ 0 ∧ p.slipWindow ≠ 1, .slip),
        (p.clockTimeoutUs = 0, .clockTimeout),
        (p.windowCount = 0 ∨ 8 < p.windowCount, .windowCount),
        (∃ k a b, p.windows[k]? = some a ∧ p.windows[k + 1]? = some b ∧ b.start < a.start + a.length, .windowOrder),
        (∃ w, w ∈ p.windows ∧ (w.length < 8 ∨ limit < w.start + w.length), .windowBounds),
        (8192 < (p.windows.map fun w => (w.length + 7) / 8).sum, .payloadSize)]
    (kind = 2 → parseProgram fixedPart bytes = (.halt (wordAt fixedPart 0) (flag 0), .none))
      ∧ (kind ≠ 1 → kind ≠ 2 → parseProgram fixedPart bytes = (.run p, .badKind))
      ∧ (kind = 1 → parseProgram fixedPart bytes = (.run p, p.validate))
      ∧ (∀ (k : Nat) (t : Prop × RejectReason), tests[k]? = some t → t.1 →
        (∀ (j : Nat) (e : Prop × RejectReason), j < k → tests[j]? = some e → ¬e.1) → p.validate = t.2)
      ∧ ((∀ t, t ∈ tests → ¬t.1) → p.validate = .none)
      ∧ p.generation = wordAt fixedPart 0 ∧ p.cut = flag 0 ∧ p.startOnStrt = flag 1 ∧ p.keepFlywheel = flag 2
      ∧ p.autoPolarity = flag 3 ∧ p.invert = flag 4 ∧ p.inputTest = flag 5
      ∧ p.windowCount = (byteAt fixedPart 6).toNat ∧ p.syncLength = (byteAt fixedPart 7).toNat
      ∧ p.syncPattern = dwordAt fixedPart 8 ∧ p.syncMask = dwordAt fixedPart 16
      ∧ p.frameLength = (wordAt fixedPart 24).toNat ∧ p.searchTol = (byteAt fixedPart 28).toNat
      ∧ p.checkTol = (byteAt fixedPart 29).toNat ∧ p.lockTol = (byteAt fixedPart 30).toNat
      ∧ p.checkCount = (byteAt fixedPart 31).toNat ∧ p.flywheelLimit = (byteAt fixedPart 32).toNat
      ∧ p.slipWindow = (byteAt fixedPart 33).toNat ∧ p.decimation = (byteAt fixedPart 34).toNat
      ∧ p.clockTimeoutUs = (byteAt fixedPart 35).toNat ∧ p.captureNotifyBytes = wordAt fixedPart 36
      ∧ (p.windows.length = (bytes.length - 8) / 8
        ∧ ∀ (k : Nat) (w : Window), p.windows[k]? = some w →
          w.start = (wordAt bytes (8 * k)).toNat ∧ w.length = (wordAt bytes (8 * k + 4)).toNat)

/-- WINDOW_ORDER, WINDOW_BOUNDS and PAYLOAD_SIZE, for a program that passes the tests before them (R52, R53). -/
def Obligations.WindowTests : Prop :=
  ∀ p : RunProgram,
    let disordered := ∃ k a b, p.windows[k]? = some a ∧ p.windows[k + 1]? = some b ∧ b.start < a.start + a.length
    let limit := if p.slipWindow = 0 then p.frameLength else p.frameLength - 1
    let outOfBounds := ∃ w, w ∈ p.windows ∧ (w.length < 8 ∨ limit < w.start + w.length)
    let tooLarge := 8192 < (p.windows.map fun w => (w.length + 7) / 8).sum
    p.validate = .none ∨ p.validate = .windowOrder ∨ p.validate = .windowBounds ∨ p.validate = .payloadSize →
      (p.validate = .windowOrder ↔ disordered) ∧ (p.validate = .windowBounds ↔ ¬disordered ∧ outOfBounds)
        ∧ (p.validate = .payloadSize ↔ ¬disordered ∧ ¬outOfBounds ∧ tooLarge)

/-- A RUN program applied to a channel that is IDLE, HALTED or FAILED: refused with AREA, or the start of a run (R54, R61, R82,
R88). When the program switches the input the monitor restarts in QUIET (R41); otherwise it stays as it is, unless its gap timer
has already reached the new clock timeout (R40, R37). That no mark write of the new run has completed yet is the model's own bit
(log 20), the order of the events that of log 21, and the position counter 0 in SEARCH that of log 18. The input selected and the
clock timeout are those of the run settings, LINE and 255 µs without them (R31, R40); the adopted generation is that of the
program in force, 0 without one (R44). -/
def Obligations.RunStart : Prop :=
  (∀ (p : ProgramUnit) (r : RunProgram) (g : Word) (cut : Bool),
    p.timeoutTicks = 10 * p.clockTimeout ∧ (p.settings = none → p.input = .line ∧ p.clockTimeout = 255)
      ∧ (p.settings = some r → p.input = (if r.inputTest then .test else .line) ∧ p.clockTimeout = r.clockTimeoutUs)
      ∧ (p.inForce = none → p.adopted = 0) ∧ (p.inForce = some (.run r) → p.adopted = r.generation)
      ∧ (p.inForce = some (.halt g cut) → p.adopted = g) ∧ (Program.run r).generation = r.generation
      ∧ (Program.halt g cut).generation = g ∧ (Program.run r).cut = r.cut ∧ (Program.halt g cut).cut = cut)
  ∧ ∀ (ch : Chan) (r : RunProgram) (s : State),
    let p := (s.chan ch).prog
    let u := s.apply ch (.run r)
    let usable := p.latestAreaBase.toNat < 2 ^ 48 ∧ p.latestAreaBase.toNat % 4096 = 0
      ∧ ∃ k, 14 ≤ k ∧ k ≤ 24 ∧ p.latestAreaSize.toNat = 2 ^ k
    let m := (s.chan ch).monitor
    let st := (s.chan ch).stats
    let switched := p.input ≠ if r.inputTest then .test else .line
    let reached := m.evaluating = true ∧ m.state ≠ .noclock ∧ ∃ g, m.gap = some g ∧ 10 * r.clockTimeoutUs ≤ g
    let begun (mid : List EventBody) : Prop := s.Reports u
      ((some ch, .programAdopted .start r.generation) :: mid.map (fun e => (some ch, e))
        ++ [(some ch, .channelState (if r.startOnStrt then .armed else .running) (p.runIndex + 1) .program)])
    p.runState = .idle ∨ p.runState = .halted ∨ p.runState = .failed → KeepsBut ch s u
      ∧ u.port.waiting (.generationWrite ch) = true
      ∧ (¬usable → u.chan ch = { s.chan ch with prog := { p with rejected := r.generation, rejectReason := .area } }
        ∧ s.Reports u [(some ch, .programRejected .area r.generation)])
      ∧ (usable →
        (u.chan ch).prog = { p with
            runState := if r.startOnStrt then .armed else .running
            inForce := some (.run r), settings := some r, runIndex := p.runIndex + 1
            area := some ⟨p.latestAreaBase.toNat, p.latestAreaSize.toNat⟩ }
          ∧ (u.chan ch).wb = { (s.chan ch).wb with
              writeMark := p.latestRelease, acceptedRelease := p.latestRelease, notified := p.latestRelease
              runMarked := false, holdoff := none, lastBad := none, spell := none }
          ∧ (u.chan ch).capture = ⟨none, [], 0⟩
          ∧ (u.chan ch).sync =
            { state := if r.startOnStrt then .off else .search, history := [], spill := [], lastDistance := none,
              heldOpen := none, position := 0, checkCount := 0, missCount := 0, inverted := r.invert, frameNumber := 0,
              frameBegun := false, exhausted := false }
          ∧ (switched → (u.chan ch).monitor = { m with
              state := .quiet, lastBit := none, windowPosition := 0, windowTransitions := 0, recovery := 0, gap := some 0 }
            ∧ (u.chan ch).stats = { st with
                counters := { st.counters with
                  quietEntries :=
                    if m.state = .quiet then st.counters.quietEntries else saturate st.counters.quietEntries 1 } }
            ∧ begun (if m.state = .quiet then [] else [.activity .quiet]))
          ∧ (¬switched → ¬reached → (u.chan ch).monitor = m ∧ (u.chan ch).stats = st ∧ begun [])
          ∧ (¬switched → reached → (u.chan ch).monitor = { m with
              state := .noclock, lastBit := none, quietRun := 0, windowPosition := 0, windowTransitions := 0, recovery := 0 }
            ∧ ((s.chan ch).sync.state = .off → begun [.activity .noclock] ∧ (u.chan ch).stats = { st with
                counters := { st.counters with noclockEntries := saturate st.counters.noclockEntries 1 } }))
          ∧ u.port.waiting (.statusWrite ch) = true ∧ u.port.waiting (.markWrite ch) = true)

/-- A program applied to a channel in a run: a HALT, which ends framing, closes the record in fill truncated and may take up an
open spell alone (R29, R51, R64, R109, R127); or a RUN program over the run settings, a heavy or a light change, on a RUNNING
channel (R22 to R25, R56 to R58, R89) or on an ARMED one, which stays ARMED or enters RUNNING (R62). CUT, and a lock lost, close
the record in fill truncated (R89, R109); the frame numbering and the marks of the Writeback Unit are kept, and so is the drop
spell unless the record closed takes it up (R22, R58, R120). When it switches the input the monitor restarts in QUIET (R41);
otherwise the monitor stays as it is, unless its gap timer has already reached the new clock timeout (R40, R37; log 21). That a
light change in LOCK or FLYWHEEL lowers a check count above the new check_count to it is the model's choice, and so is the
position counter in SEARCH (log 18). -/
def Obligations.ProgramReplaced : Prop :=
  ∀ (ch : Chan) (s : State),
    let p := (s.chan ch).prog
    let y := (s.chan ch).sync
    let m := (s.chan ch).monitor
    let c := (s.chan ch).stats.counters
    (∀ generation cut,
      let u := s.apply ch (.halt generation cut)
      KeepsBut ch s u ∧ u.port.waiting (.generationWrite ch) = true
        ∧ (u.chan ch).prog = { p with inForce := some (.halt generation cut), runState := .halted }
        ∧ (p.runState = .halted → s.Reports u [(some ch, .programAdopted .light generation)]
          ∧ u.chan ch = { s.chan ch with prog := (u.chan ch).prog })
        ∧ (p.runState ≠ .halted → (u.chan ch).sync = y.emptied .off ∧ (u.chan ch).monitor = m
          ∧ (∃ x : State, x.chan ch = { s.chan ch with prog := (u.chan ch).prog, sync := (u.chan ch).sync }
            ∧ u.chan ch = ((x.truncate ch).writebackNext ch).chan ch)
          ∧ (u.chan ch).capture.fill = none ∧ u.port.waiting (.statusWrite ch) = true
          ∧ s.Reports u [(some ch, .programAdopted .light generation),
              (some ch, .channelState .halted p.runIndex .program)]))
      ∧ ∀ r old, p.runState = .running ∨ p.runState = .armed ∧ y.state = .off → p.settings = some old →
        let u := s.apply ch (.run r)
        let heavy := r.inputTest ≠ old.inputTest ∨ r.invert ≠ old.invert ∨ r.syncLength ≠ old.syncLength
          ∨ r.syncPattern.toNat % 2 ^ r.syncLength ≠ old.syncPattern.toNat % 2 ^ r.syncLength
          ∨ r.syncMask.toNat % 2 ^ r.syncLength ≠ old.syncMask.toNat % 2 ^ r.syncLength
          ∨ r.frameLength ≠ old.frameLength
        let locked := y.state = .lock ∨ y.state = .flywheel
        let disarmed := p.runState = .armed ∧ r.startOnStrt = false
        let switched := r.inputTest ≠ old.inputTest
        let reached := m.evaluating = true ∧ m.state ≠ .noclock ∧ ∃ g, m.gap = some g ∧ 10 * r.clockTimeoutUs ≤ g
        let closes := r.cut = true ∨ heavy ∧ locked ∨ ¬switched ∧ reached
        let losesLock := locked ∧ (heavy ∨ reached)
        let n := (u.chan ch).stats.counters
        let reports (change : ChangeClass) (lost : Bool) (mid : List EventBody) : Prop := s.Reports u
          ((some ch, .programAdopted change r.generation)
            :: (if lost then [(some ch, .lockLost .retune y.frameNumber)] else []) ++ mid.map (fun e => (some ch, e))
            ++ if p.runState = .armed ∧ r.startOnStrt = false
              then [(some ch, .channelState .running p.runIndex .program)] else [])
        KeepsBut ch s u ∧ u.port.waiting (.generationWrite ch) = true
          ∧ (∃ x : State, x.chan ch = { s.chan ch with
                prog := (u.chan ch).prog
                sync := (u.chan ch).sync
                monitor := (u.chan ch).monitor
                capture := { (s.chan ch).capture with
                  phase := if heavy ∨ r.decimation = old.decimation then (s.chan ch).capture.phase else 0 }
                stats := { (s.chan ch).stats with
                  counters := { c with
                    losses := n.losses, quietEntries := n.quietEntries, noclockEntries := n.noclockEntries } } }
              ∧ (closes → u.chan ch = (x.truncate ch).chan ch) ∧ (¬closes → u.chan ch = x.chan ch))
          ∧ (closes → (u.chan ch).capture.fill = none)
          ∧ (u.chan ch).wb = { (s.chan ch).wb with
              placement := (u.chan ch).wb.placement, spell := (u.chan ch).wb.spell }
          ∧ (losesLock → n.losses = saturate c.losses 1) ∧ (¬losesLock → n.losses = c.losses)
          ∧ (¬switched → n.quietEntries = c.quietEntries) ∧ (switched ∨ ¬reached → n.noclockEntries = c.noclockEntries)
          ∧ (disarmed → (u.chan ch).prog = { p with inForce := some (.run r), settings := some r, runState := .running }
            ∧ (u.chan ch).sync = { y.emptied .search with inverted := r.invert }
            ∧ u.port.waiting (.statusWrite ch) = true)
          ∧ (¬disarmed → (u.chan ch).prog = { p with inForce := some (.run r), settings := some r })
          ∧ (p.runState = .armed → r.startOnStrt = true → (u.chan ch).sync = { y with inverted := r.invert }
            ∧ (r.invert ≠ y.inverted → u.port.waiting (.statusWrite ch) = true))
          ∧ (p.runState = .running → heavy → (u.chan ch).sync = { y.emptied .search with inverted := r.invert }
            ∧ (¬(y.state = .search ∧ y.inverted = r.invert) → u.port.waiting (.statusWrite ch) = true))
          ∧ (p.runState = .running → ¬heavy → ¬reached → (u.chan ch).sync = { y with
                checkCount :=
                  if y.state = .check then min y.checkCount (r.checkCount - 1)
                  else if locked then min y.checkCount r.checkCount else y.checkCount
                missCount := if y.state = .flywheel then min y.missCount r.flywheelLimit else y.missCount })
          ∧ (switched → (u.chan ch).monitor = { m with
                state := .quiet, lastBit := none, windowPosition := 0, windowTransitions := 0, recovery := 0, gap := some 0 }
              ∧ n.quietEntries = (if m.state = .quiet then c.quietEntries else saturate c.quietEntries 1)
              ∧ (m.state ≠ .quiet → u.port.waiting (.statusWrite ch) = true)
              ∧ (¬locked → reports .heavy false (if m.state = .quiet then [] else [.activity .quiet]))
              ∧ (locked → reports .heavy true (if m.state = .quiet then [] else [.activity .quiet])))
          ∧ (¬switched → ¬reached → (u.chan ch).monitor = m ∧ (¬heavy → reports .light false [])
            ∧ (heavy → ¬locked → reports .heavy false []) ∧ (heavy → locked → reports .heavy true []))
          ∧ (¬switched → reached → (u.chan ch).monitor = { m with
                state := .noclock, lastBit := none, quietRun := 0, windowPosition := 0, windowTransitions := 0, recovery := 0 }
              ∧ n.noclockEntries = saturate c.noclockEntries 1 ∧ u.port.waiting (.statusWrite ch) = true
              ∧ (p.runState = .running → ¬heavy → (u.chan ch).sync = (match y.state with
                | .off => y
                | .search => { y with history := [], spill := [], lastDistance := none, heldOpen := none }
                | .check | .lock | .flywheel => y.emptied .search))
              ∧ (heavy → ¬locked → reports .heavy false [.activity .noclock])
              ∧ (heavy → locked → reports .heavy true [.activity .noclock])
              ∧ (¬heavy → ¬locked → reports .light false [.activity .noclock])
              ∧ (¬heavy → locked → reports .light false [.activity .noclock, .lockLost .clock y.frameNumber]))

/-! ## Frame capture -/

/-- A frame handed over is judged, and the decimation phase moves on: not kept, nothing else; kept with a staging buffer FREE, a
record is begun in it, which takes the bits handed with the frame; kept with none FREE, a STALL drop, held in the tally of the
record at the tail of the queue (R93 to R97, R119). Bits handed together are taken one by one, with rising numbers (R17, R101). -/
def Obligations.FrameJudged : Prop :=
  (∀ (ch : Chan) (index : Nat) (bit : Bool) (rest : List Bool) (s : State),
    s.captureBits ch index [] = s
      ∧ s.captureBits ch index (bit :: rest) = (s.captureBit ch index bit).captureBits ch (index + 1) rest)
  ∧ ∀ (ch : Chan) (frame : Frame) (bits : List Bool) (r : RunProgram) (s : State), (s.chan ch).prog.settings = some r →
    let c := (s.chan ch).capture
    let u := s.frameJudged ch frame bits
    let framing := (s.chan ch).sync.state = .lock ∨ (s.chan ch).sync.state = .flywheel
    let kept := c.phase = 0 ∧ (frame.flywheel = false ∨ r.keepFlywheel = true)
    let next := if r.decimation ≤ c.phase then 0 else c.phase + 1
    let free (id : BufferId) := (∀ f, c.fill = some f → f.buffer ≠ id) ∧ ∀ q, q ∈ c.queue → q.buffer ≠ id
    (¬framing ∨ ¬kept → u = s.modCapture ch fun x => { x with phase := next })
      ∧ (framing → kept → (∀ id, ¬free id) → KeepsBut ch s u ∧ u.events = s.events
        ∧ (u.chan ch).stats = { (s.chan ch).stats with
            counters := { (s.chan ch).stats.counters with
              dropsStall := saturate (s.chan ch).stats.counters.dropsStall 1 } }
        ∧ u.chan ch = { s.chan ch with stats := (u.chan ch).stats, capture := (u.chan ch).capture }
        ∧ (u.chan ch).capture.fill = c.fill ∧ (u.chan ch).capture.phase = next
        ∧ ∀ q older, c.queue = older ++ [q] → (u.chan ch).capture.queue = older ++ [{ q with
            tally := some (match q.tally with
              | none => { first := frame.number, last := frame.number, count := 1, timestamp := frame.timestamp }
              | some t => { t with last := frame.number, count := saturate t.count 1 }) }])
      ∧ (framing → kept → (∃ id, free id) → ∃ id, free id ∧ u = ((s.modCapture ch fun x =>
          { x with
            fill := some
              { buffer := id, frame := frame, runIndex := (s.chan ch).prog.runIndex, plan := ⟨r.windows, r.generation⟩,
                cursor := 0, payload := [], partialWindow := [], crc := 0xFFFFFFFF } }).captureBits ch 0 bits
        ).modCapture ch fun x => { x with phase := next })

/-- The record in fill. A bit outside the window being filled is passed over; a bit of it is kept; its last bit completes the
window, whose bytes join the payload and the CRC; and with the last window the record closes and joins the writeback queue (R98,
R101 to R105). A truncation drops a record without a complete window and closes any other with what it holds (R108). That nothing
of a record is held in fill once it has closed or been dropped is the model's choice (log 35). Packing puts the first bit of a
window into the most significant bit of its first byte, and zeros after its last (R102). The CRC takes each byte least significant
bit first: it is combined into the low end of the register, which then shifts eight times towards its least significant end under
the polynomial 0xEDB88320 (R104). -/
def Obligations.RecordFilled : Prop :=
  (∀ (ch : Chan) (f : Fill) (s : State), (s.chan ch).capture.fill = some f →
    let closed (truncated : Bool) (g : Fill) (t : State) : State := ((t.modCapture ch fun c =>
      { c with
        fill := none
        queue := c.queue ++ [⟨f.buffer, g.record ch truncated, f.frame.number, f.frame.timestamp, none⟩] }).count ch
      fun n => { n with framesCaptured := saturate n.framesCaptured 1 }).writebackNext ch
    (∀ index bit w, f.plan.windows[f.cursor]? = some w →
      let bytes := packBits (bit :: f.partialWindow).reverse
      let g : Fill := { f with
        cursor := f.cursor + 1, payload := f.payload ++ bytes, partialWindow := [], crc := crcBytes f.crc bytes }
      let u := s.captureBit ch index bit
      (index < w.start ∨ w.start + w.length ≤ index → u = s)
        ∧ (w.start ≤ index → index + 1 < w.start + w.length → u = s.modCapture ch fun c =>
          { c with fill := some { f with partialWindow := bit :: f.partialWindow } })
        ∧ (w.start ≤ index → index + 1 = w.start + w.length → f.cursor + 1 < f.plan.windows.length →
          u = s.modCapture ch fun c => { c with fill := some g })
        ∧ (w.start ≤ index → index + 1 = w.start + w.length → f.cursor + 1 = f.plan.windows.length →
          u = closed false g s))
      ∧ (let t := s.count ch fun n => { n with truncatedRecords := saturate n.truncatedRecords 1 }
        (f.cursor = 0 → s.truncate ch = t.modCapture ch fun c => { c with fill := none })
          ∧ (f.cursor ≠ 0 → s.truncate ch = closed true f t)))
  ∧ (∀ (ch : Chan) (s : State), (s.chan ch).capture.fill = none →
    s.truncate ch = s ∧ ∀ index bit, s.captureBit ch index bit = s)
  ∧ (∀ bits : List Bool, (packBits bits).length = (bits.length + 7) / 8
    ∧ ∀ i, i < 8 * (packBits bits).length →
      ((packBits bits).getD (i / 8) 0).getLsbD (7 - i % 8) = bits.getD i false)
  ∧ ∀ (c : Word) (b : Byte) (rest : List Byte),
    let shift (x : Word) : Word := if x.getLsbD 0 then (x >>> 1) ^^^ 0xEDB88320 else x >>> 1
    crcBytes c [] = c
      ∧ crcBytes c (b :: rest) = crcBytes (Nat.repeat shift 8 (c ^^^ b.zeroExtend 32)) rest

/-- The bytes of FRAME, GAP and event records, field by field (R106, R126, R136, R150, R204, R206; sections
12.4, 12.5); the type, code and details of each event (R150); and the values of the codes (R52, R150, R164, R195; section
12.2). -/
def Obligations.RecordFormats : Prop :=
  ∀ (ch : Chan) (f : Fill) (truncated : Bool) (d : DropSpell) (runIndex : Byte) (j : JournalRecord),
    let r := f.record ch truncated
    let n := f.payload.length
    let gap := d.record ch runIndex
    let e := j.event.body.fields
    (r.length % 8 = 0 ∧ 32 + n ≤ r.length ∧ r.length < 40 + n ∧ byteAt r 0 = 1
      ∧ (byteAt r 1).getLsbD 0 = truncated ∧ (byteAt r 1).getLsbD 1 = f.frame.flywheel
      ∧ (byteAt r 1).getLsbD 2 = f.frame.slippedEarly ∧ (byteAt r 1).getLsbD 3 = f.frame.slippedLate
      ∧ (byteAt r 1).getLsbD 4 = f.frame.inverted ∧ (∀ k, 5 ≤ k → (byteAt r 1).getLsbD k = false)
      ∧ halfAt r 2 = BitVec.ofNat 16 r.length ∧ byteAt r 4 = f.runIndex
      ∧ (∀ k, k < 8 → (byteAt r 5).getLsbD k = decide (k < f.cursor)) ∧ byteAt r 6 = BitVec.ofNat 8 f.frame.distance
      ∧ (byteAt r 7).toNat = chanNumber ch ∧ wordAt r 8 = f.frame.number ∧ wordAt r 12 = f.plan.generation
      ∧ dwordAt r 16 = f.frame.timestamp ∧ wordAt r 24 = BitVec.ofNat 32 n ∧ wordAt r 28 = ~~~f.crc
      ∧ (∀ i, i < n → r[32 + i]? = f.payload[i]?) ∧ ∀ i, 32 + n ≤ i → byteAt r i = 0)
      ∧ (gap.length = 32 ∧ byteAt gap 0 = 2 ∧ (byteAt gap 1).getLsbD 0 = d.noroom ∧ (byteAt gap 1).getLsbD 1 = d.stall
        ∧ (∀ k, 2 ≤ k → (byteAt gap 1).getLsbD k = false)
        ∧ halfAt gap 2 = 32 ∧ byteAt gap 4 = runIndex ∧ byteAt gap 5 = 0 ∧ byteAt gap 6 = 0
        ∧ (byteAt gap 7).toNat = chanNumber ch ∧ wordAt gap 8 = d.first ∧ wordAt gap 12 = d.last
        ∧ dwordAt gap 16 = d.timestamp ∧ wordAt gap 24 = d.count ∧ wordAt gap 28 = 0)
      ∧ (j.bytes.length = 32 ∧ wordAt j.bytes 0 = j.sequence ∧ byteAt j.bytes 4 = BitVec.ofNat 8 e.1
        ∧ (∀ c, j.event.channel = some c → (byteAt j.bytes 5).toNat = chanNumber c)
        ∧ (j.event.channel = none → byteAt j.bytes 5 = 0xFF) ∧ halfAt j.bytes 6 = BitVec.ofNat 16 e.2.1
        ∧ dwordAt j.bytes 8 = j.event.timestamp ∧ wordAt j.bytes 16 = BitVec.ofNat 32 e.2.2.1
        ∧ wordAt j.bytes 20 = BitVec.ofNat 32 e.2.2.2.1 ∧ dwordAt j.bytes 24 = BitVec.ofNat 64 e.2.2.2.2)
      ∧ (∀ (b : Bool) (v w : Word) (g : Word) (i : Byte) (h : Half) (address : BitVec 48) (loss : LossReason)
          (activity : ActivityState) (change : ChangeClass) (reject : RejectReason) (run : RunState) (cause : Cause)
          (drop : DropReason) (outcome : TestOutcome) (test : TestReject) (device : DeviceState),
        let sense := if b then 1 else 0
        (EventBody.lockAcquired b v).fields = (1, sense, v.toNat, 0, 0)
          ∧ (EventBody.lockLost loss v).fields = (2, lossCode loss, v.toNat, 0, 0)
          ∧ (EventBody.activity activity).fields = (3, activityCode activity, 0, 0, 0)
          ∧ (EventBody.polarityFlip b).fields = (4, sense, 0, 0, 0)
          ∧ (EventBody.programAdopted change g).fields = (5, changeCode change, g.toNat, 0, 0)
          ∧ (EventBody.programRejected reject g).fields = (6, rejectCode reject, g.toNat, 0, 0)
          ∧ (EventBody.programTorn g).fields = (7, 0, g.toNat, 0, 0)
          ∧ (EventBody.programSuperseded v w).fields = (8, 0, v.toNat, w.toNat, 0)
          ∧ (EventBody.channelState run i cause).fields = (9, runStateCode run, i.toNat, causeCode cause, 0)
          ∧ (EventBody.captureDrops drop v i).fields = (10, dropReasonCode drop, v.toNat, i.toNat, 0)
          ∧ (EventBody.captureFault address).fields = (11, 0, 0, 0, address.toNat)
          ∧ (EventBody.badRelease v w).fields = (12, 0, v.toNat, w.toNat, 0)
          ∧ (EventBody.statsFault h).fields = (13, 0, h.toNat, 0, 0)
          ∧ EventBody.startEdge.fields = (14, 0, 0, 0, 0)
          ∧ (EventBody.testSource outcome g test).fields = (15, testOutcomeCode outcome, g.toNat, testRejectCode test, 0)
          ∧ (EventBody.deviceState device).fields = (16, deviceCode device, 0, 0, 0)
          ∧ (EventBody.journalOverflow h).fields = (17, 0, h.toNat, 0, 0))
      ∧ ([LossReason.misses, .clock, .retune].map lossCode = [1, 2, 3]
        ∧ [ActivityState.active, .quiet, .noclock].map activityCode = [0, 1, 2]
        ∧ [ChangeClass.start, .light, .heavy].map changeCode = [1, 2, 3]
        ∧ [RunState.idle, .armed, .running, .halted, .failed].map runStateCode = [0, 1, 2, 3, 4]
        ∧ [SyncState.off, .search, .check, .lock, .flywheel].map syncStateCode = [0, 1, 2, 3, 4]
        ∧ [Cause.program, .strt, .drain, .writeError].map causeCode = [1, 2, 3, 4]
        ∧ [DropReason.noroom, .stall].map dropReasonCode = [1, 2]
        ∧ [TestOutcome.adopted, .rejected, .torn].map testOutcomeCode = [1, 2, 3]
        ∧ [DeviceState.dormant, .running, .draining, .stopped, .starting, .faulted].map deviceCode = [0, 1, 2, 3, 4, 5]
        ∧ [FaultCode.none, .badHeader, .headerAccess, .slotAccess, .journalAccess].map faultCodeNumber = [0, 1, 2, 3, 4]
        ∧ [RejectReason.none, .badKind, .syncLength, .syncMask, .frameLength, .tolerance, .checkCount, .flywheelLimit,
            .slip, .clockTimeout, .windowCount, .windowOrder, .windowBounds, .payloadSize, .address, .area,
            .fetchError].map rejectCode = List.range 17
        ∧ [TestReject.none, .run, .bitDivider, .syncLength, .frameLength, .lfsrLength, .lfsrTap, .errorExponent,
            .corruptBits, .address, .fetchError].map testRejectCode = List.range 11)

/-! ## Capture areas -/

/-- A release value offered to the Writeback Unit: accepted, or refused and reported once (R116, R118). -/
def Obligations.ReleaseOffered : Prop :=
  ∀ (ch : Chan) (value : Word) (s : State),
    let w := (s.chan ch).wb
    let u := s.offerRelease ch value
    let acceptable := (value - w.acceptedRelease).toNat ≤ (w.writeMark - w.acceptedRelease).toNat
    ((s.chan ch).prog.area = none ∨ ¬acceptable ∧ w.lastBad = some value → u = s)
      ∧ ((s.chan ch).prog.area ≠ none → acceptable → KeepsBut ch s u ∧ u.events = s.events
        ∧ u.chan ch = { s.chan ch with wb := { w with acceptedRelease := value, lastBad := none } }
        ∧ (value ≠ w.acceptedRelease → u.port.waiting (.markWrite ch) = true)
        ∧ (value = w.acceptedRelease → u.port = s.port))
      ∧ ((s.chan ch).prog.area ≠ none → ¬acceptable → w.lastBad ≠ some value → KeepsBut ch s u
        ∧ u.chan ch = { s.chan ch with
            wb := { w with lastBad := some value }
            stats := { (s.chan ch).stats with
              counters := { (s.chan ch).stats.counters with
                badReleases := saturate (s.chan ch).stats.counters.badReleases 1 } } }
        ∧ s.Reports u [(some ch, .badRelease value w.writeMark)])

/-- The next group taken up when none is being placed: the record at the head of the queue, behind a GAP when a spell is open, or
a GAP alone when the channel is HALTED with an empty queue and an open spell. Its group is built, and placed at once if there is
room, as bursts of at most 256 bytes laid end to end; otherwise it waits for a re-read (R120, R121, R123, R127). In every other
case there is nothing to take up. A burst's address of 2^48 or more is the exact number, which is the model's choice (log 12). -/
def Obligations.GroupTakenUp : Prop :=
  ∀ (ch : Chan) (s : State),
    let w := (s.chan ch).wb
    let queue := (s.chan ch).capture.queue
    let u := s.writebackNext ch
    (w.placement ≠ .idle ∨ (s.chan ch).prog.area = none
        ∨ queue = [] ∧ (w.spell = none ∨ (s.chan ch).prog.runState ≠ .halted) → u = s)
      ∧ ∀ (area : Area) (alone : Bool) (record : List Byte), w.placement = .idle → (s.chan ch).prog.area = some area →
        (alone = false ∧ ∃ r rest, queue = r :: rest ∧ record = r.bytes)
          ∨ (alone = true ∧ queue = [] ∧ w.spell ≠ none ∧ (s.chan ch).prog.runState = .halted ∧ record = []) →
        let gap : List Byte := (w.spell.map fun d => d.record ch (s.chan ch).prog.runIndex).getD []
        let offset := w.writeMark.toNat % area.size
        let size := (if w.spell.isSome then 32 else 0) + record.length
        let pad := if offset + size ≤ area.size then 0 else area.size - offset
        let g : Group := { alone := alone, gap := w.spell.isSome, pad := pad, offset := offset, size := size }
        let room := area.size - (w.writeMark - w.acceptedRelease).toNat
        let body := area.base + (if pad = 0 then offset else 0)
        KeepsBut ch s u ∧ u.events = s.events ∧ s.areaRoom ch = room
          ∧ (pad + size ≤ room → ∃ bursts, bursts = (s.chan ch).groupBursts ch g
            ∧ u.chan ch = { s.chan ch with wb := { w with placement := .writing g bursts, spell := none } }
              ∧ u.port.waiting (.recordBurst ch) = true
              ∧ (pad = 0 → bursts.length = ((gap ++ record).length + 255) / 256)
              ∧ (pad ≠ 0 → bursts.length = ((gap ++ record).length + 255) / 256 + 1
                ∧ bursts[0]? = some ⟨area.base + offset,
                  ([3, 0, BitVec.ofNat 8 pad, BitVec.ofNat 8 (pad / 256), 0, 0, 0, 0] : List Byte).take pad⟩)
              ∧ ∀ k, k < ((gap ++ record).length + 255) / 256 → bursts[if pad = 0 then k else k + 1]?
                = some ⟨body + 256 * k, ((gap ++ record).drop (256 * k)).take 256⟩)
          ∧ (room < pad + size → u.chan ch = { s.chan ch with wb := { w with placement := .reread g } }
            ∧ u.port.outstanding (.reRead ch) = true)

/-- A re-read: its value, if it brings one, is offered; then a group that waits for it is placed, or discarded, or its record
dropped for NOROOM (R117, R121, R122, R125, R127). -/
def Obligations.ReRead : Prop :=
  ∀ (ch : Chan) (response : ReadResponse) (w : Transaction) (s : State), s.Inv → s.Answering (.reRead ch) w →
    (∀ bytes, response = .okay bytes → bytes.length = w.length) →
    let c : Instr := .reReadComplete ch response
    let t := match response with
      | .okay bytes => s.freePort.offerRelease ch (wordAt bytes 0)
      | .error => s.freePort
    ((∀ g, (s.chan ch).wb.placement ≠ .reread g) → exec c s = .next t.settle.regrant)
      ∧ ∀ g, (s.chan ch).wb.placement = .reread g →
        (g.pad + g.size ≤ t.areaRoom ch → exec c s = .next ((t.modWb ch fun x =>
          { x with
            placement := .writing g ((t.chan ch).groupBursts ch g)
            spell := if g.gap then none else x.spell }).request (.recordBurst ch)).settle.regrant)
        ∧ (t.areaRoom ch < g.pad + g.size → g.alone = true → exec c s = .next (t.modWb ch fun x =>
          { x with placement := .idle, spell := none }).settle.regrant)
        ∧ ∀ r rest, t.areaRoom ch < g.pad + g.size → g.alone = false → (s.chan ch).capture.queue = r :: rest →
          let spell : DropSpell := match (s.chan ch).wb.spell with
            | none =>
              { first := r.frameNumber, last := r.frameNumber, count := 1, noroom := true, stall := false,
                timestamp := r.timestamp }
            | some d => { d with last := r.frameNumber, count := saturate d.count 1, noroom := true }
          ∃ u : State, exec c s = .next (u.writebackNext ch).settle.regrant ∧ KeepsBut ch t u
            ∧ u.chan ch = { t.chan ch with
                capture := { (s.chan ch).capture with queue := rest }
                wb := { (t.chan ch).wb with
                  placement := .idle
                  spell := some (match r.tally with
                    | none => spell
                    | some y => { spell with last := y.last, count := saturate spell.count y.count.toNat, stall := true }) }
                stats := { (t.chan ch).stats with
                  counters := { (t.chan ch).stats.counters with
                    dropsNoroom := saturate (s.chan ch).stats.counters.dropsNoroom 1 } } }
            ∧ ((s.chan ch).wb.spell = none →
              t.Reports u [(some ch, .captureDrops .noroom r.frameNumber (s.chan ch).prog.runIndex)])
            ∧ (∀ d, (s.chan ch).wb.spell = some d → u.events = t.events)

/-- A record burst: the next one is requested, or the group is complete (R123, R124, R127); on ERROR the channel enters FAILED
(R29, R66, R92, R132). -/
def Obligations.RecordBurst : Prop :=
  ∀ (ch : Chan) (w : Transaction) (g : Group) (s : State), s.Answering (.recordBurst ch) w →
    let placed := s.freePort.placeBytes w
    let n := (s.chan ch).stats.counters
    (∀ b next rest, (s.chan ch).wb.placement = .writing g (b :: next :: rest) →
      exec (.recordBurstComplete ch .okay) s = .next ((placed.modWb ch fun x =>
        { x with placement := .writing g (next :: rest) }).request (.recordBurst ch)).settle.regrant)
      ∧ (∀ b, (s.chan ch).wb.placement = .writing g [b] →
        ∃ u : State, exec (.recordBurstComplete ch .okay) s = .next (u.writebackNext ch).settle.regrant
          ∧ KeepsBut ch placed u ∧ u.port.waiting (.markWrite ch) = true
          ∧ u.chan ch = { s.chan ch with
              wb := { (s.chan ch).wb with
                writeMark := (s.chan ch).wb.writeMark + BitVec.ofNat 32 (g.pad + g.size), placement := .idle
                spell := (u.chan ch).wb.spell }
              capture := { (s.chan ch).capture with
                queue := if g.alone then (s.chan ch).capture.queue else (s.chan ch).capture.queue.tail }
              stats := { (s.chan ch).stats with
                counters := { n with
                  recordsWritten := if g.alone then n.recordsWritten else saturate n.recordsWritten 1
                  bytesWritten := saturate n.bytesWritten (g.pad + g.size) } } }
          ∧ ((g.alone = true ∨ ∀ r rest, (s.chan ch).capture.queue = r :: rest → r.tally = none) →
            (u.chan ch).wb.spell = (s.chan ch).wb.spell ∧ u.events = s.events)
          ∧ (∀ r rest y, g.alone = false → (s.chan ch).capture.queue = r :: rest → r.tally = some y →
            (s.chan ch).wb.spell = none →
            (u.chan ch).wb.spell = some
                { first := y.first, last := y.last, count := y.count, noroom := false, stall := true,
                  timestamp := y.timestamp }
              ∧ placed.Reports u [(some ch, .captureDrops .stall y.first (s.chan ch).prog.runIndex)])
          ∧ (∀ r rest y d, g.alone = false → (s.chan ch).capture.queue = r :: rest → r.tally = some y →
            (s.chan ch).wb.spell = some d →
            (u.chan ch).wb.spell = some { d with last := y.last, count := saturate d.count y.count.toNat, stall := true }
              ∧ u.events = s.events))
      ∧ ∃ u : State, exec (.recordBurstComplete ch .error) s = .next u.settle.regrant
        ∧ KeepsBut ch (s.freePort.spoilBytes w) u
        ∧ u.chan ch = { s.chan ch with
            prog := { (s.chan ch).prog with runState := .failed, held := none }
            sync := (s.chan ch).sync.emptied .off
            capture := { fill := none, queue := [], phase := 0 }
            wb := { (s.chan ch).wb with spell := none, placement := .idle } }
        ∧ u.port.waiting (.statusWrite ch) = true
        ∧ (w.address < 2 ^ 48 → s.Reports u [(some ch, .captureFault (BitVec.ofNat 48 w.address)),
          (some ch, .channelState .failed (s.chan ch).prog.runIndex .writeError)])

/-- A mark write: the mark it carried is published, and the capture notice is tested: raised, left to the holdoff timer, or not
due, when nothing has advanced (R128 to R130; log 20). -/
def Obligations.MarkWrite : Prop :=
  ∀ (ch : Chan) (w : Transaction) (s : State),
    wordAt (s.transaction (.markWrite ch)).data 0 = (s.chan ch).wb.writeMark
      ∧ (s.Answering (.markWrite ch) w →
        let carried := wordAt w.data 0
        let wb := (s.chan ch).wb
        let notify := ((s.chan ch).prog.settings.map fun r => r.captureNotifyBytes.toNat).getD 0
        let same := carried = wb.notified ∨ wb.runMarked = true ∧ carried = wb.published
        let t := (s.freePort.placeBytes w).modWb ch fun x => { x with published := carried, runMarked := true }
        (same → exec (.markWriteComplete ch .okay) s = .next t.settle.regrant)
          ∧ (¬same → notify ≤ (carried - wb.notified).toNat → ∃ u : State,
            exec (.markWriteComplete ch .okay) s = .next u.settle.regrant
              ∧ u = { t with
                  chans := u.chans
                  regs := { s.regs with irqPend := s.regs.irqPend ||| BitVec.ofNat 11 (2 ^ chanNumber ch) } }
              ∧ u.chan ch = { t.chan ch with wb := { (t.chan ch).wb with notified := carried, holdoff := none } }
              ∧ ∀ c, c ≠ ch → u.chan c = s.chan c)
          ∧ (¬same → (carried - wb.notified).toNat < notify →
            exec (.markWriteComplete ch .okay) s = .next (t.modWb ch fun x =>
              { x with holdoff := if wb.holdoff = none ∧ s.params.holdoffUs ≠ 0 then some 0 else wb.holdoff }
              ).settle.regrant))

/-! ## The journal -/

/-- An event handed to the Event Unit (R136, R138, R140 to R142). It is taken in RUNNING, DRAINING and STOPPED only. With fewer
than 16 events waiting it joins the tail of the queue, stamped with the timebase; with 16 it is dropped, counted in the dropped
count and the dropped total, and a journal mark write is requested. When the placement is BLOCKED a journal re-read is requested,
and when no placement is under way the next one begins. The events that wait stay as they are, and no channel is touched. A
counter of any width that is raised stays at its maximum (R151). -/
def Obligations.EventHandedOver : Prop :=
  (∀ (w n : Nat) (c : BitVec w), (saturate c n).toNat = min (c.toNat + n) (2 ^ w - 1))
  ∧ ∀ (channel : Option Chan) (body : EventBody) (s : State),
    let u := s.hand channel body
    let e := s.events
    let taken := s.device = .running ∨ s.device = .draining ∨ s.device = .stopped
    let admitted : EventUnit := { e with queue := e.queue ++ [⟨channel, body, s.timebase⟩] }
    let dropped : EventUnit :=
      { e with droppedCount := saturate e.droppedCount 1, droppedTotal := saturate e.droppedTotal 1 }
    (¬taken → u = s) ∧ KeepsChans s u
      ∧ (taken → e.queue.length < 16 →
        (e.placement ≠ .idle → u.events = admitted)
          ∧ (e.placement = .idle → u = ({ s with events := admitted } : State).journalNext))
      ∧ (taken → 16 ≤ e.queue.length → u.port.waiting .journalMark = true
        ∧ (e.placement ≠ .idle → u.events = dropped)
        ∧ (e.placement = .idle → u = (({ s with events := dropped } : State).request .journalMark).journalNext))
      ∧ (taken → e.placement = .blocked → u.port.outstanding .journalReRead = true)

/-- What the Event Unit does next when it has no placement under way: nothing without work; with room, it fixes the next record,
JOURNAL_OVERFLOW first, and requests its write; without room, a re-read (R140, R142). -/
def Obligations.JournalPlacement : Prop :=
  ∀ s : State,
    let e := s.events
    let room := s.params.journalSize.toNat - (e.writeMark - e.acceptedRelease).toNat
    let record (event : Event) (fromQueue : Bool) : JournalRecord :=
      { event := event, sequence := e.sequence, offset := e.writeMark.toNat % s.params.journalSize.toNat
        fromQueue := fromQueue, secondPart := false }
    (e.placement ≠ .idle ∨ e.queue = [] ∧ e.droppedCount = 0 → s.journalNext = s)
      ∧ (e.placement = .idle → e.droppedCount = 0 → 32 ≤ room → ∀ event rest, e.queue = event :: rest →
        s.journalNext = ({ s with events := { e with placement := .writing (record event true) } } : State).request
          .journalRecord)
      ∧ (e.placement = .idle → e.droppedCount ≠ 0 → 32 ≤ room → s.journalNext = ({ s with
          events := { e with
            droppedCount := 0
            placement := .writing (record ⟨none, .journalOverflow e.droppedCount, s.timebase⟩ false) } } : State).request
          .journalRecord)
      ∧ (e.placement = .idle → e.queue ≠ [] ∨ e.droppedCount ≠ 0 → room < 32 → ∃ u : State, s.journalNext = u
        ∧ u = { s with events := { e with placement := .reread }, port := u.port }
        ∧ u.port.outstanding .journalReRead = true)

/-- A journal record write: its second part is requested when the record reaches past the end of the area; otherwise the record
is complete, and the next placement begins (R137, R143). -/
def Obligations.JournalRecordWritten : Prop :=
  ∀ (w : Transaction) (r : JournalRecord) (s : State), s.Answering .journalRecord w → s.events.placement = .writing r →
    let placed := s.freePort.placeBytes w
    let first := s.params.journalSize.toNat < r.offset + 32 ∧ r.secondPart = false
    (first → exec (.journalRecordWriteComplete .okay) s = .next
        (({ placed with events := { s.events with placement := .writing { r with secondPart := true } } } : State).request
          .journalRecord).settle.regrant)
      ∧ (¬first → ∃ u : State, exec (.journalRecordWriteComplete .okay) s = .next u.journalNext.settle.regrant
        ∧ u = { placed with
            events := { s.events with
              writeMark := s.events.writeMark + 32
              sequence := s.events.sequence + 1
              queue := if r.fromQueue then s.events.queue.tail else s.events.queue
              placement := .idle }
            port := u.port }
        ∧ u.port.waiting .journalMark = true)

/-- A journal re-read: its value, if it brings one, is accepted or refused; then a placement that waits for room compares the room
again, and writes or stays BLOCKED (R138 to R141). -/
def Obligations.JournalReRead : Prop :=
  ∀ (bytes : List Byte) (w : Transaction) (s : State), s.Inv → s.Answering .journalReRead w →
    bytes.length = w.length →
    let e := s.events
    let value := wordAt bytes 0
    let acceptable := (value - e.acceptedRelease).toNat ≤ (e.writeMark - e.acceptedRelease).toNat
    exec (.journalReReadComplete .error) s = .next s.freePort.journalRecheck.settle.regrant
      ∧ (∃ u : State, exec (.journalReReadComplete (.okay bytes)) s = .next u.journalRecheck.settle.regrant
        ∧ u = { s with events := u.events, port := u.port }
        ∧ u.events = (if acceptable then { e with acceptedRelease := value, lastBad := none }
            else if e.lastBad = some value then e
            else { e with badReleases := saturate e.badReleases 1, lastBad := some value })
        ∧ ((if acceptable then value ≠ e.acceptedRelease else e.lastBad ≠ some value) →
          u.port.waiting .journalMark = true))
      ∧ ∀ t : State,
        let room := t.params.journalSize.toNat - (t.events.writeMark - t.events.acceptedRelease).toNat
        let waits := t.events.placement = .reread ∨ t.events.placement = .blocked
        (¬waits → t.journalRecheck = t)
          ∧ (waits → room < 32 → t.journalRecheck = { t with events := { t.events with placement := .blocked } })
          ∧ (waits → 32 ≤ room → t.journalRecheck
              = ({ t with events := { t.events with placement := .idle } } : State).journalNext
            ∨ t.events.queue = [] ∧ t.events.droppedCount = 0)

/-- A journal mark write: the mark it carried is published, and the JOURNAL notice is tested: raised, left to the holdoff timer,
or not due (R145 to R147). -/
def Obligations.JournalMarkWrite : Prop :=
  ∀ (w : Transaction) (s : State),
    wordAt (s.transaction .journalMark).data 0 = s.events.writeMark
      ∧ (s.Answering .journalMark w →
        let carried := wordAt w.data 0
        let e := { s.events with published := carried }
        let placed := s.freePort.placeBytes w
        let records := (carried - e.noticed).toNat / 32
        let threshold := s.params.journalThreshold.toNat
        (carried = e.noticed → exec (.journalMarkWriteComplete .okay) s
            = .next ({ placed with events := e } : State).settle.regrant)
          ∧ (carried ≠ e.noticed → threshold ≤ records → exec (.journalMarkWriteComplete .okay) s = .next
            ({ placed with
              events := { e with noticed := carried, holdoff := none }
              regs := { s.regs with irqPend := s.regs.irqPend ||| 0x100 } } : State).settle.regrant)
          ∧ (carried ≠ e.noticed → records < threshold → exec (.journalMarkWriteComplete .okay) s = .next
            ({ placed with events := { e with
                holdoff := if e.holdoff = none ∧ s.params.holdoffUs ≠ 0 then some 0 else e.holdoff } } : State
              ).settle.regrant))

/-! ## Statistics -/

/-- A snapshot: taken at a slot read that shows a new request, in RUNNING, while none is being delivered (R153, R158); delivered
by its block write and then its served write, or given up with STATS_FAULT (R155, R156). -/
def Obligations.Snapshot : Prop :=
  ∀ (ch : Chan) (request : Half) (clear : Bool) (w : Transaction) (s : State),
    let st := (s.chan ch).stats
    let zeros : Counters := ⟨0, 0, 0, 0, 0, 0, 0, 0, 0, 0, 0, 0, 0, 0, 0, 0⟩
    let taken := request ≠ st.served ∧ s.device = .running ∧ s.outstanding (.blockWrite ch) = false
      ∧ s.outstanding (.servedWrite ch) = false
    (¬taken → s.offerStats ch request clear = s)
      ∧ (taken → s.offerStats ch request clear = (s.modStats ch fun st =>
        { st with
          latch := some ⟨s.timebase, st.counters⟩
          latchedRequest := request
          counters := if clear then zeros else st.counters }).request (.blockWrite ch))
      ∧ (s.Answering (.blockWrite ch) w →
        exec (.blockWriteComplete ch .okay) s = .next (((s.freePort.placeBytes w).modStats ch fun st =>
            { st with served := st.latchedRequest, latch := none }).request (.servedWrite ch)).settle.regrant
          ∧ ∃ u : State, exec (.blockWriteComplete ch .error) s = .next u.settle.regrant
            ∧ KeepsBut ch (s.freePort.spoilBytes w) u
            ∧ u.chan ch = { s.chan ch with stats := { st with latch := none } }
            ∧ s.Reports u [(some ch, .statsFault st.latchedRequest)])

/-! ## The Test Source -/

/-- A sample of the test generation: a new one starts a block fetch, or is refused with ADDRESS (R161, R162, R165). -/
def Obligations.TestSample : Prop :=
  ∀ (bytes : List Byte) (w : Transaction) (s : State), s.Inv → s.Answering .testSample w → bytes.length = w.length →
    let pointer := dwordAt bytes 0
    let generation := wordAt bytes 8
    let new := generation ≠ 0 ∧ generation ≠ s.test.adopted ∧ generation ≠ s.test.rejected
      ∧ ∀ p, s.test.waiting = some p → p.generation ≠ generation
    let usable := pointer.toNat < 2 ^ 48 ∧ pointer.toNat % 8 = 0
    let c : Instr := .testSampleReadComplete (.okay bytes)
    (s.device ≠ .running ∨ ¬new ∨ s.test.fetch ≠ none → exec c s = .next s.freePort.settle.regrant)
      ∧ (s.device = .running → new → s.test.fetch = none → usable → exec c s = .next
        (({ s.freePort with test := { s.test with fetch := some ⟨generation, pointer⟩ } } : State).request .blockFetch
          ).settle.regrant)
      ∧ (s.device = .running → new → s.test.fetch = none → ¬usable → ∃ u : State, exec c s = .next u.settle.regrant
        ∧ KeepsChans { s.freePort with test := { s.test with rejected := generation, rejectReason := .address } } u
        ∧ s.Reports u [(none, .testSource .rejected generation .address)] ∧ u.port.waiting .testStatus = true)

/-- What a Test Source Block says: where its fields lie (12 section 12.6), and tests 1 to 8, the first that fails giving the
reject reason (R164). -/
def Obligations.TestBlockContents : Prop :=
  ∀ bytes : List Byte,
    let p := TestSettings.parse bytes
    let tests : List (Prop × TestReject) :=
      [(p.run ≠ 0 ∧ p.run ≠ 1, .run),
        (p.bitDivider < 4 ∨ 4096 < p.bitDivider, .bitDivider),
        (p.syncLength < 8 ∨ 64 < p.syncLength, .syncLength),
        (p.frameLength < p.syncLength + 8 ∨ 65536 < p.frameLength, .frameLength),
        (p.lfsrLength < 7 ∨ 31 < p.lfsrLength, .lfsrLength),
        (p.lfsrTap = 0 ∨ p.lfsrLength ≤ p.lfsrTap, .lfsrTap),
        (7 < p.errorExponent, .errorExponent),
        (p.corruptPeriod ≠ 0 ∧ (p.corruptBits = 0 ∨ 8 < p.corruptBits ∨ p.syncLength < p.corruptBits), .corruptBits)]
    (∀ (k : Nat) (t : Prop × TestReject), tests[k]? = some t → t.1 →
        (∀ (j : Nat) (e : Prop × TestReject), j < k → tests[j]? = some e → ¬e.1) → p.validate = t.2)
      ∧ ((∀ t, t ∈ tests → ¬t.1) → p.validate = .none)
      ∧ p.generation = wordAt bytes 0 ∧ p.run = (byteAt bytes 4).toNat ∧ p.syncLength = (byteAt bytes 5).toNat
      ∧ p.lfsrLength = (byteAt bytes 6).toNat ∧ p.lfsrTap = (byteAt bytes 7).toNat ∧ p.syncPattern = dwordAt bytes 8
      ∧ p.frameLength = (wordAt bytes 16).toNat ∧ p.bitDivider = (halfAt bytes 20).toNat
      ∧ p.errorExponent = (byteAt bytes 22).toNat ∧ p.corruptBits = (byteAt bytes 23).toNat
      ∧ p.corruptPeriod = (byteAt bytes 24).toNat ∧ p.seed = wordAt bytes 28

/-- A block fetch: discarded outside RUNNING; refused when it fails or its contents fail a test; torn; or adopted, applied at
once by a stopped source and held for the next test frame by a running one (R163 to R166, R168). -/
def Obligations.TestBlockFetch : Prop :=
  ∀ (bytes : List Byte) (f : BlockFetch) (w : Transaction) (s : State), s.Inv → s.Answering .blockFetch w →
    bytes.length = w.length → s.test.fetch = some f →
    let c : Instr := .blockFetchComplete (.okay bytes)
    let p := TestSettings.parse bytes
    let idle := { s.test with fetch := none }
    let whole := wordAt bytes 0 = f.generation ∧ wordAt bytes 32 = f.generation
    let refused (command : Instr) (reason : TestReject) : Prop := ∃ u : State, exec command s = .next u.settle.regrant
      ∧ KeepsChans { s.freePort with test := { idle with rejected := f.generation, rejectReason := reason } } u
      ∧ s.Reports u [(none, .testSource .rejected f.generation reason)] ∧ u.port.waiting .testStatus = true
    (s.device ≠ .running → exec c s = .next ({ s.freePort with test := idle } : State).settle.regrant
        ∧ exec (.blockFetchComplete .error) s = .next ({ s.freePort with test := idle } : State).settle.regrant)
      ∧ (s.device = .running → refused (.blockFetchComplete .error) .fetchError)
      ∧ (s.device = .running → ¬whole → ∃ u : State, exec c s = .next u.settle.regrant
        ∧ KeepsChans { s.freePort with test := idle } u ∧ s.Reports u [(none, .testSource .torn f.generation .none)])
      ∧ (s.device = .running → whole → p.validate ≠ .none → refused c p.validate)
      ∧ (s.device = .running → whole → p.validate = .none → ∃ (u : State) (x : TestSource),
        exec c s = .next u.settle.regrant ∧ KeepsChans { s.freePort with test := { x with adopted := f.generation } } u
          ∧ s.Reports u [(none, .testSource .adopted f.generation .none)] ∧ u.port.waiting .testStatus = true
          ∧ (s.test.state = .running → x = { idle with waiting := some p })
          ∧ (s.test.state = .stopped → p.run = 0 → x = { idle with settings := some p })
          ∧ (s.test.state = .stopped → p.run = 1 → x = { idle with
              state := .running, settings := some p, position := 0, errorCount := 0, stopRequested := false
              lfsr := BitVec.ofNat 32 (p.seed.toNat % 2 ^ p.lfsrLength)
              corrupted := decide (p.corruptPeriod = 1)
              corruptionCount := if p.corruptPeriod = 0 ∨ p.corruptPeriod = 1 then 0 else 1 }))

/-- A bit clock of the Test Source: the bit it emits reaches every channel that selects TEST, and the source moves on; a bit clock
at which a frame ends, an error is inserted by rate or a corrupted frame starts is the same command under its own name (R32,
R43, R168 to R171). That the channels take the bit in the order CH0 to CH7 (log 32), that one command brings one bit (log 9) and
that its moments have commands of their own (log 2) are the model's choices. -/
def Obligations.TestBitClock : Prop :=
  ∀ (p : TestSettings) (s : State), s.resetHeld = false → s.Inv →
    let t := s.test
    let feedback := if t.lfsr = 0 then true else t.lfsr.getLsbD (p.lfsrLength - 1) != t.lfsr.getLsbD (p.lfsrTap - 1)
    let rate := p.errorExponent ≠ 0 ∧ t.errorCount + 1 = 10 ^ p.errorExponent
    let c : Instr := .testSourceBitClock
    (s.device = .dormant ∨ s.device = .starting ∨ s.device = .faulted ∨ t.state = .stopped → exec c s = .next s)
      ∧ (s.device = .running ∨ s.device = .draining ∨ s.device = .stopped → t.state = .running → t.settings = some p →
        ∃ u : State,
          (∀ bit, (t.position < p.syncLength → bit = (p.syncPattern.getLsbD (p.syncLength - 1 - t.position)
                != (t.corrupted && decide (t.position < p.corruptBits)))) →
            (p.syncLength ≤ t.position → (rate ∨ t.inject = true → bit = !feedback)
              ∧ (¬rate → t.inject = false → bit = feedback)) →
            u = ({ allChans.foldl (fun v ch => if (v.chan ch).prog.input = .test then v.bitClock ch bit else v) s with
              test := t.tick p } : State))
          ∧ (u.test.state = .running → exec c s = .next u.arbitrate)
          ∧ (u.test.state = .stopped → exec c s = .next (u.request .testStatus).arbitrate)
          ∧ (t.position + 1 = p.frameLength → exec .testFrameStart s = exec c s)
          ∧ (p.syncLength ≤ t.position → rate → exec .rateErrorInsertion s = exec c s)
          ∧ (t.position + 1 = p.frameLength → u.test.state = .running → u.test.corrupted = true →
            exec .syncCorruption s = exec c s))

/-- The Test Source after a bit clock: within a frame, sync bits and payload bits; and at the end of one, a stop or the start of
the next, under the settings in force or under pending ones (R166, R169 to R172). The seed's bits at n and above take no part
(R164, R169), so two seeds differ when bits below n do (log 33). -/
def Obligations.TestSourceMoves : Prop :=
  ∀ (p : TestSettings) (t : TestSource), p.lfsrLength ≤ 32 →
    let u := t.tick p
    let feedback := if t.lfsr = 0 then true else t.lfsr.getLsbD (p.lfsrLength - 1) != t.lfsr.getLsbD (p.lfsrTap - 1)
    let payload := p.syncLength ≤ t.position
    let last := t.position + 1 = p.frameLength
    let errors := if ¬payload ∨ p.errorExponent = 0 then t.errorCount
      else if t.errorCount + 1 = 10 ^ p.errorExponent then 0 else t.errorCount + 1
    let inject := if payload then false else t.inject
    let ranOn : Prop := (payload → ∀ i, i < 32 → u.lfsr.getLsbD i
        = (decide (i < p.lfsrLength) && if i = 0 then feedback else t.lfsr.getLsbD (i - 1)))
      ∧ (¬payload → u.lfsr = t.lfsr)
    let started (q : TestSettings) (count : Nat) : Prop :=
      (q.corruptPeriod = 0 → u.corrupted = false ∧ u.corruptionCount = count)
        ∧ (q.corruptPeriod ≠ 0 → count + 1 = q.corruptPeriod → u.corrupted = true ∧ u.corruptionCount = 0)
        ∧ (q.corruptPeriod ≠ 0 → count + 1 ≠ q.corruptPeriod → u.corrupted = false ∧ u.corruptionCount = count + 1)
    (¬last → u = { t with position := t.position + 1, lfsr := u.lfsr, inject := inject, errorCount := errors } ∧ ranOn)
      ∧ (last → t.waiting = none → t.stopRequested = false →
        u = { t with
            position := 0, lfsr := u.lfsr, inject := inject, errorCount := errors
            corrupted := u.corrupted, corruptionCount := u.corruptionCount }
          ∧ ranOn ∧ started p t.corruptionCount)
      ∧ (last → t.waiting = none → t.stopRequested = true →
        u = { t with
            state := .stopped, position := u.position, lfsr := u.lfsr, inject := false, errorCount := errors
            stopRequested := false }
          ∧ ranOn)
      ∧ ∀ new, last → t.waiting = some new →
        let same := new.lfsrLength = p.lfsrLength ∧ new.lfsrTap = p.lfsrTap
          ∧ new.seed.toNat % 2 ^ new.lfsrLength = p.seed.toNat % 2 ^ new.lfsrLength
        let kept := if new.errorExponent = p.errorExponent then errors else 0
        let count := if new.corruptPeriod = p.corruptPeriod then t.corruptionCount else 0
        (same → ranOn) ∧ (¬same → u.lfsr = BitVec.ofNat 32 (new.seed.toNat % 2 ^ new.lfsrLength))
          ∧ (t.stopRequested = true ∨ new.run = 0 → u = { t with
              state := .stopped, settings := some new, waiting := none, position := u.position, lfsr := u.lfsr
              inject := false, errorCount := kept, corruptionCount := count, stopRequested := false })
          ∧ (t.stopRequested = false → new.run ≠ 0 → u = { t with
                settings := some new, waiting := none, position := 0, lfsr := u.lfsr, inject := inject
                errorCount := kept, corrupted := u.corrupted, corruptionCount := u.corruptionCount }
            ∧ started new count)
end

