-- ==== Sys2Proof/Laws/State.lean ====
section
/-! SUPPORT. One lemma per field per update of the state: what an update leaves, and what it sets. -/

namespace Sys2Proof.Machine

/-! ## One channel of eight -/

@[simp] theorem PerChannel.get_set {α : Type} (p : PerChannel α) (ch : Chan) (v : α) : (p.set ch v).get ch = v := by
  cases ch <;> rfl

theorem PerChannel.get_set_ne {α : Type} (p : PerChannel α) {ch c : Chan} (v : α) (h : c ≠ ch) :
    (p.set ch v).get c = p.get c := by
  cases ch <;> cases c <;> first | rfl | exact absurd rfl h

@[simp] theorem PerChannel.get_all {α : Type} (v : α) (ch : Chan) : (PerChannel.all v).get ch = v := by cases ch <;> rfl

@[simp] theorem PerChannel.get_map {α β : Type} (f : α → β) (p : PerChannel α) (ch : Chan) :
    (p.map f).get ch = f (p.get ch) := by cases ch <;> rfl

@[simp] theorem chan_modChan (s : State) (ch : Chan) (f : Channel → Channel) : (s.modChan ch f).chan ch = f (s.chan ch) :=
  PerChannel.get_set ..

theorem chan_modChan_ne (s : State) {ch c : Chan} (f : Channel → Channel) (h : c ≠ ch) :
    (s.modChan ch f).chan c = s.chan c := PerChannel.get_set_ne _ _ h

/-! ## `modChan` -/

@[simp] theorem modChan_pending (s : State) (ch : Chan) (f : Channel → Channel) : (s.modChan ch f).pending = s.pending := rfl
@[simp] theorem modChan_resetHeld (s : State) (ch : Chan) (f : Channel → Channel) : (s.modChan ch f).resetHeld = s.resetHeld := rfl
@[simp] theorem modChan_device (s : State) (ch : Chan) (f : Channel → Channel) : (s.modChan ch f).device = s.device := rfl
@[simp] theorem modChan_faultCode (s : State) (ch : Chan) (f : Channel → Channel) : (s.modChan ch f).faultCode = s.faultCode := rfl
@[simp] theorem modChan_sessionBase (s : State) (ch : Chan) (f : Channel → Channel) : (s.modChan ch f).sessionBase = s.sessionBase := rfl
@[simp] theorem modChan_params (s : State) (ch : Chan) (f : Channel → Channel) : (s.modChan ch f).params = s.params := rfl
@[simp] theorem modChan_idlePoll (s : State) (ch : Chan) (f : Channel → Channel) : (s.modChan ch f).idlePoll = s.idlePoll := rfl
@[simp] theorem modChan_timebase (s : State) (ch : Chan) (f : Channel → Channel) : (s.modChan ch f).timebase = s.timebase := rfl
@[simp] theorem modChan_regs (s : State) (ch : Chan) (f : Channel → Channel) : (s.modChan ch f).regs = s.regs := rfl
@[simp] theorem modChan_events (s : State) (ch : Chan) (f : Channel → Channel) : (s.modChan ch f).events = s.events := rfl
@[simp] theorem modChan_test (s : State) (ch : Chan) (f : Channel → Channel) : (s.modChan ch f).test = s.test := rfl
@[simp] theorem modChan_port (s : State) (ch : Chan) (f : Channel → Channel) : (s.modChan ch f).port = s.port := rfl
@[simp] theorem modChan_frozen (s : State) (ch : Chan) (f : Channel → Channel) : (s.modChan ch f).frozen = s.frozen := rfl
@[simp] theorem modChan_mem (s : State) (ch : Chan) (f : Channel → Channel) : (s.modChan ch f).mem = s.mem := rfl
@[simp] theorem modChan_freeCount (s : State) (ch : Chan) (f : Channel → Channel) : (s.modChan ch f).freeCount = s.freeCount := rfl

/-! ## `modProg` -/

@[simp] theorem modProg_pending (s : State) (ch : Chan) (f : ProgramUnit → ProgramUnit) : (s.modProg ch f).pending = s.pending := rfl
@[simp] theorem modProg_resetHeld (s : State) (ch : Chan) (f : ProgramUnit → ProgramUnit) : (s.modProg ch f).resetHeld = s.resetHeld := rfl
@[simp] theorem modProg_device (s : State) (ch : Chan) (f : ProgramUnit → ProgramUnit) : (s.modProg ch f).device = s.device := rfl
@[simp] theorem modProg_faultCode (s : State) (ch : Chan) (f : ProgramUnit → ProgramUnit) : (s.modProg ch f).faultCode = s.faultCode := rfl
@[simp] theorem modProg_sessionBase (s : State) (ch : Chan) (f : ProgramUnit → ProgramUnit) : (s.modProg ch f).sessionBase = s.sessionBase := rfl
@[simp] theorem modProg_params (s : State) (ch : Chan) (f : ProgramUnit → ProgramUnit) : (s.modProg ch f).params = s.params := rfl
@[simp] theorem modProg_idlePoll (s : State) (ch : Chan) (f : ProgramUnit → ProgramUnit) : (s.modProg ch f).idlePoll = s.idlePoll := rfl
@[simp] theorem modProg_timebase (s : State) (ch : Chan) (f : ProgramUnit → ProgramUnit) : (s.modProg ch f).timebase = s.timebase := rfl
@[simp] theorem modProg_regs (s : State) (ch : Chan) (f : ProgramUnit → ProgramUnit) : (s.modProg ch f).regs = s.regs := rfl
@[simp] theorem modProg_events (s : State) (ch : Chan) (f : ProgramUnit → ProgramUnit) : (s.modProg ch f).events = s.events := rfl
@[simp] theorem modProg_test (s : State) (ch : Chan) (f : ProgramUnit → ProgramUnit) : (s.modProg ch f).test = s.test := rfl
@[simp] theorem modProg_port (s : State) (ch : Chan) (f : ProgramUnit → ProgramUnit) : (s.modProg ch f).port = s.port := rfl
@[simp] theorem modProg_frozen (s : State) (ch : Chan) (f : ProgramUnit → ProgramUnit) : (s.modProg ch f).frozen = s.frozen := rfl
@[simp] theorem modProg_mem (s : State) (ch : Chan) (f : ProgramUnit → ProgramUnit) : (s.modProg ch f).mem = s.mem := rfl
@[simp] theorem modProg_freeCount (s : State) (ch : Chan) (f : ProgramUnit → ProgramUnit) : (s.modProg ch f).freeCount = s.freeCount := rfl

@[simp] theorem chan_modProg (s : State) (ch : Chan) (f : ProgramUnit → ProgramUnit) :
    (s.modProg ch f).chan ch = { s.chan ch with prog := f (s.chan ch).prog } := chan_modChan ..

theorem chan_modProg_ne (s : State) {ch c : Chan} (f : ProgramUnit → ProgramUnit) (h : c ≠ ch) : (s.modProg ch f).chan c = s.chan c :=
  chan_modChan_ne s _ h

/-! ## `modSync` -/

@[simp] theorem modSync_pending (s : State) (ch : Chan) (f : Synchronizer → Synchronizer) : (s.modSync ch f).pending = s.pending := rfl
@[simp] theorem modSync_resetHeld (s : State) (ch : Chan) (f : Synchronizer → Synchronizer) : (s.modSync ch f).resetHeld = s.resetHeld := rfl
@[simp] theorem modSync_device (s : State) (ch : Chan) (f : Synchronizer → Synchronizer) : (s.modSync ch f).device = s.device := rfl
@[simp] theorem modSync_faultCode (s : State) (ch : Chan) (f : Synchronizer → Synchronizer) : (s.modSync ch f).faultCode = s.faultCode := rfl
@[simp] theorem modSync_sessionBase (s : State) (ch : Chan) (f : Synchronizer → Synchronizer) : (s.modSync ch f).sessionBase = s.sessionBase := rfl
@[simp] theorem modSync_params (s : State) (ch : Chan) (f : Synchronizer → Synchronizer) : (s.modSync ch f).params = s.params := rfl
@[simp] theorem modSync_idlePoll (s : State) (ch : Chan) (f : Synchronizer → Synchronizer) : (s.modSync ch f).idlePoll = s.idlePoll := rfl
@[simp] theorem modSync_timebase (s : State) (ch : Chan) (f : Synchronizer → Synchronizer) : (s.modSync ch f).timebase = s.timebase := rfl
@[simp] theorem modSync_regs (s : State) (ch : Chan) (f : Synchronizer → Synchronizer) : (s.modSync ch f).regs = s.regs := rfl
@[simp] theorem modSync_events (s : State) (ch : Chan) (f : Synchronizer → Synchronizer) : (s.modSync ch f).events = s.events := rfl
@[simp] theorem modSync_test (s : State) (ch : Chan) (f : Synchronizer → Synchronizer) : (s.modSync ch f).test = s.test := rfl
@[simp] theorem modSync_port (s : State) (ch : Chan) (f : Synchronizer → Synchronizer) : (s.modSync ch f).port = s.port := rfl
@[simp] theorem modSync_frozen (s : State) (ch : Chan) (f : Synchronizer → Synchronizer) : (s.modSync ch f).frozen = s.frozen := rfl
@[simp] theorem modSync_mem (s : State) (ch : Chan) (f : Synchronizer → Synchronizer) : (s.modSync ch f).mem = s.mem := rfl
@[simp] theorem modSync_freeCount (s : State) (ch : Chan) (f : Synchronizer → Synchronizer) : (s.modSync ch f).freeCount = s.freeCount := rfl

@[simp] theorem chan_modSync (s : State) (ch : Chan) (f : Synchronizer → Synchronizer) :
    (s.modSync ch f).chan ch = { s.chan ch with sync := f (s.chan ch).sync } := chan_modChan ..

theorem chan_modSync_ne (s : State) {ch c : Chan} (f : Synchronizer → Synchronizer) (h : c ≠ ch) : (s.modSync ch f).chan c = s.chan c :=
  chan_modChan_ne s _ h

/-! ## `modMonitor` -/

@[simp] theorem modMonitor_pending (s : State) (ch : Chan) (f : Monitor → Monitor) : (s.modMonitor ch f).pending = s.pending := rfl
@[simp] theorem modMonitor_resetHeld (s : State) (ch : Chan) (f : Monitor → Monitor) : (s.modMonitor ch f).resetHeld = s.resetHeld := rfl
@[simp] theorem modMonitor_device (s : State) (ch : Chan) (f : Monitor → Monitor) : (s.modMonitor ch f).device = s.device := rfl
@[simp] theorem modMonitor_faultCode (s : State) (ch : Chan) (f : Monitor → Monitor) : (s.modMonitor ch f).faultCode = s.faultCode := rfl
@[simp] theorem modMonitor_sessionBase (s : State) (ch : Chan) (f : Monitor → Monitor) : (s.modMonitor ch f).sessionBase = s.sessionBase := rfl
@[simp] theorem modMonitor_params (s : State) (ch : Chan) (f : Monitor → Monitor) : (s.modMonitor ch f).params = s.params := rfl
@[simp] theorem modMonitor_idlePoll (s : State) (ch : Chan) (f : Monitor → Monitor) : (s.modMonitor ch f).idlePoll = s.idlePoll := rfl
@[simp] theorem modMonitor_timebase (s : State) (ch : Chan) (f : Monitor → Monitor) : (s.modMonitor ch f).timebase = s.timebase := rfl
@[simp] theorem modMonitor_regs (s : State) (ch : Chan) (f : Monitor → Monitor) : (s.modMonitor ch f).regs = s.regs := rfl
@[simp] theorem modMonitor_events (s : State) (ch : Chan) (f : Monitor → Monitor) : (s.modMonitor ch f).events = s.events := rfl
@[simp] theorem modMonitor_test (s : State) (ch : Chan) (f : Monitor → Monitor) : (s.modMonitor ch f).test = s.test := rfl
@[simp] theorem modMonitor_port (s : State) (ch : Chan) (f : Monitor → Monitor) : (s.modMonitor ch f).port = s.port := rfl
@[simp] theorem modMonitor_frozen (s : State) (ch : Chan) (f : Monitor → Monitor) : (s.modMonitor ch f).frozen = s.frozen := rfl
@[simp] theorem modMonitor_mem (s : State) (ch : Chan) (f : Monitor → Monitor) : (s.modMonitor ch f).mem = s.mem := rfl
@[simp] theorem modMonitor_freeCount (s : State) (ch : Chan) (f : Monitor → Monitor) : (s.modMonitor ch f).freeCount = s.freeCount := rfl

@[simp] theorem chan_modMonitor (s : State) (ch : Chan) (f : Monitor → Monitor) :
    (s.modMonitor ch f).chan ch = { s.chan ch with monitor := f (s.chan ch).monitor } := chan_modChan ..

theorem chan_modMonitor_ne (s : State) {ch c : Chan} (f : Monitor → Monitor) (h : c ≠ ch) : (s.modMonitor ch f).chan c = s.chan c :=
  chan_modChan_ne s _ h

/-! ## `modCapture` -/

@[simp] theorem modCapture_pending (s : State) (ch : Chan) (f : Capture → Capture) : (s.modCapture ch f).pending = s.pending := rfl
@[simp] theorem modCapture_resetHeld (s : State) (ch : Chan) (f : Capture → Capture) : (s.modCapture ch f).resetHeld = s.resetHeld := rfl
@[simp] theorem modCapture_device (s : State) (ch : Chan) (f : Capture → Capture) : (s.modCapture ch f).device = s.device := rfl
@[simp] theorem modCapture_faultCode (s : State) (ch : Chan) (f : Capture → Capture) : (s.modCapture ch f).faultCode = s.faultCode := rfl
@[simp] theorem modCapture_sessionBase (s : State) (ch : Chan) (f : Capture → Capture) : (s.modCapture ch f).sessionBase = s.sessionBase := rfl
@[simp] theorem modCapture_params (s : State) (ch : Chan) (f : Capture → Capture) : (s.modCapture ch f).params = s.params := rfl
@[simp] theorem modCapture_idlePoll (s : State) (ch : Chan) (f : Capture → Capture) : (s.modCapture ch f).idlePoll = s.idlePoll := rfl
@[simp] theorem modCapture_timebase (s : State) (ch : Chan) (f : Capture → Capture) : (s.modCapture ch f).timebase = s.timebase := rfl
@[simp] theorem modCapture_regs (s : State) (ch : Chan) (f : Capture → Capture) : (s.modCapture ch f).regs = s.regs := rfl
@[simp] theorem modCapture_events (s : State) (ch : Chan) (f : Capture → Capture) : (s.modCapture ch f).events = s.events := rfl
@[simp] theorem modCapture_test (s : State) (ch : Chan) (f : Capture → Capture) : (s.modCapture ch f).test = s.test := rfl
@[simp] theorem modCapture_port (s : State) (ch : Chan) (f : Capture → Capture) : (s.modCapture ch f).port = s.port := rfl
@[simp] theorem modCapture_frozen (s : State) (ch : Chan) (f : Capture → Capture) : (s.modCapture ch f).frozen = s.frozen := rfl
@[simp] theorem modCapture_mem (s : State) (ch : Chan) (f : Capture → Capture) : (s.modCapture ch f).mem = s.mem := rfl
@[simp] theorem modCapture_freeCount (s : State) (ch : Chan) (f : Capture → Capture) : (s.modCapture ch f).freeCount = s.freeCount := rfl

@[simp] theorem chan_modCapture (s : State) (ch : Chan) (f : Capture → Capture) :
    (s.modCapture ch f).chan ch = { s.chan ch with capture := f (s.chan ch).capture } := chan_modChan ..

theorem chan_modCapture_ne (s : State) {ch c : Chan} (f : Capture → Capture) (h : c ≠ ch) : (s.modCapture ch f).chan c = s.chan c :=
  chan_modChan_ne s _ h

/-! ## `modWb` -/

@[simp] theorem modWb_pending (s : State) (ch : Chan) (f : Writeback → Writeback) : (s.modWb ch f).pending = s.pending := rfl
@[simp] theorem modWb_resetHeld (s : State) (ch : Chan) (f : Writeback → Writeback) : (s.modWb ch f).resetHeld = s.resetHeld := rfl
@[simp] theorem modWb_device (s : State) (ch : Chan) (f : Writeback → Writeback) : (s.modWb ch f).device = s.device := rfl
@[simp] theorem modWb_faultCode (s : State) (ch : Chan) (f : Writeback → Writeback) : (s.modWb ch f).faultCode = s.faultCode := rfl
@[simp] theorem modWb_sessionBase (s : State) (ch : Chan) (f : Writeback → Writeback) : (s.modWb ch f).sessionBase = s.sessionBase := rfl
@[simp] theorem modWb_params (s : State) (ch : Chan) (f : Writeback → Writeback) : (s.modWb ch f).params = s.params := rfl
@[simp] theorem modWb_idlePoll (s : State) (ch : Chan) (f : Writeback → Writeback) : (s.modWb ch f).idlePoll = s.idlePoll := rfl
@[simp] theorem modWb_timebase (s : State) (ch : Chan) (f : Writeback → Writeback) : (s.modWb ch f).timebase = s.timebase := rfl
@[simp] theorem modWb_regs (s : State) (ch : Chan) (f : Writeback → Writeback) : (s.modWb ch f).regs = s.regs := rfl
@[simp] theorem modWb_events (s : State) (ch : Chan) (f : Writeback → Writeback) : (s.modWb ch f).events = s.events := rfl
@[simp] theorem modWb_test (s : State) (ch : Chan) (f : Writeback → Writeback) : (s.modWb ch f).test = s.test := rfl
@[simp] theorem modWb_port (s : State) (ch : Chan) (f : Writeback → Writeback) : (s.modWb ch f).port = s.port := rfl
@[simp] theorem modWb_frozen (s : State) (ch : Chan) (f : Writeback → Writeback) : (s.modWb ch f).frozen = s.frozen := rfl
@[simp] theorem modWb_mem (s : State) (ch : Chan) (f : Writeback → Writeback) : (s.modWb ch f).mem = s.mem := rfl
@[simp] theorem modWb_freeCount (s : State) (ch : Chan) (f : Writeback → Writeback) : (s.modWb ch f).freeCount = s.freeCount := rfl

@[simp] theorem chan_modWb (s : State) (ch : Chan) (f : Writeback → Writeback) :
    (s.modWb ch f).chan ch = { s.chan ch with wb := f (s.chan ch).wb } := chan_modChan ..

theorem chan_modWb_ne (s : State) {ch c : Chan} (f : Writeback → Writeback) (h : c ≠ ch) : (s.modWb ch f).chan c = s.chan c :=
  chan_modChan_ne s _ h

/-! ## `modStats` -/

@[simp] theorem modStats_pending (s : State) (ch : Chan) (f : Statistics → Statistics) : (s.modStats ch f).pending = s.pending := rfl
@[simp] theorem modStats_resetHeld (s : State) (ch : Chan) (f : Statistics → Statistics) : (s.modStats ch f).resetHeld = s.resetHeld := rfl
@[simp] theorem modStats_device (s : State) (ch : Chan) (f : Statistics → Statistics) : (s.modStats ch f).device = s.device := rfl
@[simp] theorem modStats_faultCode (s : State) (ch : Chan) (f : Statistics → Statistics) : (s.modStats ch f).faultCode = s.faultCode := rfl
@[simp] theorem modStats_sessionBase (s : State) (ch : Chan) (f : Statistics → Statistics) : (s.modStats ch f).sessionBase = s.sessionBase := rfl
@[simp] theorem modStats_params (s : State) (ch : Chan) (f : Statistics → Statistics) : (s.modStats ch f).params = s.params := rfl
@[simp] theorem modStats_idlePoll (s : State) (ch : Chan) (f : Statistics → Statistics) : (s.modStats ch f).idlePoll = s.idlePoll := rfl
@[simp] theorem modStats_timebase (s : State) (ch : Chan) (f : Statistics → Statistics) : (s.modStats ch f).timebase = s.timebase := rfl
@[simp] theorem modStats_regs (s : State) (ch : Chan) (f : Statistics → Statistics) : (s.modStats ch f).regs = s.regs := rfl
@[simp] theorem modStats_events (s : State) (ch : Chan) (f : Statistics → Statistics) : (s.modStats ch f).events = s.events := rfl
@[simp] theorem modStats_test (s : State) (ch : Chan) (f : Statistics → Statistics) : (s.modStats ch f).test = s.test := rfl
@[simp] theorem modStats_port (s : State) (ch : Chan) (f : Statistics → Statistics) : (s.modStats ch f).port = s.port := rfl
@[simp] theorem modStats_frozen (s : State) (ch : Chan) (f : Statistics → Statistics) : (s.modStats ch f).frozen = s.frozen := rfl
@[simp] theorem modStats_mem (s : State) (ch : Chan) (f : Statistics → Statistics) : (s.modStats ch f).mem = s.mem := rfl
@[simp] theorem modStats_freeCount (s : State) (ch : Chan) (f : Statistics → Statistics) : (s.modStats ch f).freeCount = s.freeCount := rfl

@[simp] theorem chan_modStats (s : State) (ch : Chan) (f : Statistics → Statistics) :
    (s.modStats ch f).chan ch = { s.chan ch with stats := f (s.chan ch).stats } := chan_modChan ..

theorem chan_modStats_ne (s : State) {ch c : Chan} (f : Statistics → Statistics) (h : c ≠ ch) : (s.modStats ch f).chan c = s.chan c :=
  chan_modChan_ne s _ h

/-! ## `count` -/

@[simp] theorem count_pending (s : State) (ch : Chan) (f : Counters → Counters) : (s.count ch f).pending = s.pending := rfl
@[simp] theorem count_resetHeld (s : State) (ch : Chan) (f : Counters → Counters) : (s.count ch f).resetHeld = s.resetHeld := rfl
@[simp] theorem count_device (s : State) (ch : Chan) (f : Counters → Counters) : (s.count ch f).device = s.device := rfl
@[simp] theorem count_faultCode (s : State) (ch : Chan) (f : Counters → Counters) : (s.count ch f).faultCode = s.faultCode := rfl
@[simp] theorem count_sessionBase (s : State) (ch : Chan) (f : Counters → Counters) : (s.count ch f).sessionBase = s.sessionBase := rfl
@[simp] theorem count_params (s : State) (ch : Chan) (f : Counters → Counters) : (s.count ch f).params = s.params := rfl
@[simp] theorem count_idlePoll (s : State) (ch : Chan) (f : Counters → Counters) : (s.count ch f).idlePoll = s.idlePoll := rfl
@[simp] theorem count_timebase (s : State) (ch : Chan) (f : Counters → Counters) : (s.count ch f).timebase = s.timebase := rfl
@[simp] theorem count_regs (s : State) (ch : Chan) (f : Counters → Counters) : (s.count ch f).regs = s.regs := rfl
@[simp] theorem count_events (s : State) (ch : Chan) (f : Counters → Counters) : (s.count ch f).events = s.events := rfl
@[simp] theorem count_test (s : State) (ch : Chan) (f : Counters → Counters) : (s.count ch f).test = s.test := rfl
@[simp] theorem count_port (s : State) (ch : Chan) (f : Counters → Counters) : (s.count ch f).port = s.port := rfl
@[simp] theorem count_frozen (s : State) (ch : Chan) (f : Counters → Counters) : (s.count ch f).frozen = s.frozen := rfl
@[simp] theorem count_mem (s : State) (ch : Chan) (f : Counters → Counters) : (s.count ch f).mem = s.mem := rfl
@[simp] theorem count_freeCount (s : State) (ch : Chan) (f : Counters → Counters) : (s.count ch f).freeCount = s.freeCount := rfl

@[simp] theorem chan_count (s : State) (ch : Chan) (f : Counters → Counters) :
    (s.count ch f).chan ch = { s.chan ch with stats := { (s.chan ch).stats with counters := f (s.chan ch).stats.counters } } :=
  chan_modChan ..

theorem chan_count_ne (s : State) {ch c : Chan} (f : Counters → Counters) (h : c ≠ ch) :
    (s.count ch f).chan c = s.chan c := chan_modChan_ne s _ h

/-! ## `modEvents` -/

@[simp] theorem modEvents_pending (s : State) (f : EventUnit → EventUnit) : (s.modEvents f).pending = s.pending := rfl
@[simp] theorem modEvents_resetHeld (s : State) (f : EventUnit → EventUnit) : (s.modEvents f).resetHeld = s.resetHeld := rfl
@[simp] theorem modEvents_device (s : State) (f : EventUnit → EventUnit) : (s.modEvents f).device = s.device := rfl
@[simp] theorem modEvents_faultCode (s : State) (f : EventUnit → EventUnit) : (s.modEvents f).faultCode = s.faultCode := rfl
@[simp] theorem modEvents_sessionBase (s : State) (f : EventUnit → EventUnit) : (s.modEvents f).sessionBase = s.sessionBase := rfl
@[simp] theorem modEvents_params (s : State) (f : EventUnit → EventUnit) : (s.modEvents f).params = s.params := rfl
@[simp] theorem modEvents_idlePoll (s : State) (f : EventUnit → EventUnit) : (s.modEvents f).idlePoll = s.idlePoll := rfl
@[simp] theorem modEvents_timebase (s : State) (f : EventUnit → EventUnit) : (s.modEvents f).timebase = s.timebase := rfl
@[simp] theorem modEvents_regs (s : State) (f : EventUnit → EventUnit) : (s.modEvents f).regs = s.regs := rfl
@[simp] theorem modEvents_chans (s : State) (f : EventUnit → EventUnit) : (s.modEvents f).chans = s.chans := rfl
@[simp] theorem modEvents_test (s : State) (f : EventUnit → EventUnit) : (s.modEvents f).test = s.test := rfl
@[simp] theorem modEvents_port (s : State) (f : EventUnit → EventUnit) : (s.modEvents f).port = s.port := rfl
@[simp] theorem modEvents_frozen (s : State) (f : EventUnit → EventUnit) : (s.modEvents f).frozen = s.frozen := rfl
@[simp] theorem modEvents_mem (s : State) (f : EventUnit → EventUnit) : (s.modEvents f).mem = s.mem := rfl
@[simp] theorem modEvents_freeCount (s : State) (f : EventUnit → EventUnit) : (s.modEvents f).freeCount = s.freeCount := rfl
@[simp] theorem modEvents_chan (s : State) (f : EventUnit → EventUnit) (c : Chan) : (s.modEvents f).chan c = s.chan c := rfl

@[simp] theorem modEvents_events (s : State) (f : EventUnit → EventUnit) : (s.modEvents f).events = f s.events := rfl

/-! ## `modTest` -/

@[simp] theorem modTest_pending (s : State) (f : TestSource → TestSource) : (s.modTest f).pending = s.pending := rfl
@[simp] theorem modTest_resetHeld (s : State) (f : TestSource → TestSource) : (s.modTest f).resetHeld = s.resetHeld := rfl
@[simp] theorem modTest_device (s : State) (f : TestSource → TestSource) : (s.modTest f).device = s.device := rfl
@[simp] theorem modTest_faultCode (s : State) (f : TestSource → TestSource) : (s.modTest f).faultCode = s.faultCode := rfl
@[simp] theorem modTest_sessionBase (s : State) (f : TestSource → TestSource) : (s.modTest f).sessionBase = s.sessionBase := rfl
@[simp] theorem modTest_params (s : State) (f : TestSource → TestSource) : (s.modTest f).params = s.params := rfl
@[simp] theorem modTest_idlePoll (s : State) (f : TestSource → TestSource) : (s.modTest f).idlePoll = s.idlePoll := rfl
@[simp] theorem modTest_timebase (s : State) (f : TestSource → TestSource) : (s.modTest f).timebase = s.timebase := rfl
@[simp] theorem modTest_regs (s : State) (f : TestSource → TestSource) : (s.modTest f).regs = s.regs := rfl
@[simp] theorem modTest_chans (s : State) (f : TestSource → TestSource) : (s.modTest f).chans = s.chans := rfl
@[simp] theorem modTest_events (s : State) (f : TestSource → TestSource) : (s.modTest f).events = s.events := rfl
@[simp] theorem modTest_port (s : State) (f : TestSource → TestSource) : (s.modTest f).port = s.port := rfl
@[simp] theorem modTest_frozen (s : State) (f : TestSource → TestSource) : (s.modTest f).frozen = s.frozen := rfl
@[simp] theorem modTest_mem (s : State) (f : TestSource → TestSource) : (s.modTest f).mem = s.mem := rfl
@[simp] theorem modTest_freeCount (s : State) (f : TestSource → TestSource) : (s.modTest f).freeCount = s.freeCount := rfl
@[simp] theorem modTest_chan (s : State) (f : TestSource → TestSource) (c : Chan) : (s.modTest f).chan c = s.chan c := rfl

@[simp] theorem modTest_test (s : State) (f : TestSource → TestSource) : (s.modTest f).test = f s.test := rfl

/-! ## `raise` -/

@[simp] theorem raise_pending (s : State) (x : IrqSource) : (s.raise x).pending = s.pending := rfl
@[simp] theorem raise_resetHeld (s : State) (x : IrqSource) : (s.raise x).resetHeld = s.resetHeld := rfl
@[simp] theorem raise_device (s : State) (x : IrqSource) : (s.raise x).device = s.device := rfl
@[simp] theorem raise_faultCode (s : State) (x : IrqSource) : (s.raise x).faultCode = s.faultCode := rfl
@[simp] theorem raise_sessionBase (s : State) (x : IrqSource) : (s.raise x).sessionBase = s.sessionBase := rfl
@[simp] theorem raise_params (s : State) (x : IrqSource) : (s.raise x).params = s.params := rfl
@[simp] theorem raise_idlePoll (s : State) (x : IrqSource) : (s.raise x).idlePoll = s.idlePoll := rfl
@[simp] theorem raise_timebase (s : State) (x : IrqSource) : (s.raise x).timebase = s.timebase := rfl
@[simp] theorem raise_chans (s : State) (x : IrqSource) : (s.raise x).chans = s.chans := rfl
@[simp] theorem raise_events (s : State) (x : IrqSource) : (s.raise x).events = s.events := rfl
@[simp] theorem raise_test (s : State) (x : IrqSource) : (s.raise x).test = s.test := rfl
@[simp] theorem raise_port (s : State) (x : IrqSource) : (s.raise x).port = s.port := rfl
@[simp] theorem raise_frozen (s : State) (x : IrqSource) : (s.raise x).frozen = s.frozen := rfl
@[simp] theorem raise_mem (s : State) (x : IrqSource) : (s.raise x).mem = s.mem := rfl
@[simp] theorem raise_freeCount (s : State) (x : IrqSource) : (s.raise x).freeCount = s.freeCount := rfl
@[simp] theorem raise_chan (s : State) (x : IrqSource) (c : Chan) : (s.raise x).chan c = s.chan c := rfl

/-! ## `request` -/

@[simp] theorem request_pending (s : State) (r : Request) : (s.request r).pending = s.pending := rfl
@[simp] theorem request_resetHeld (s : State) (r : Request) : (s.request r).resetHeld = s.resetHeld := rfl
@[simp] theorem request_device (s : State) (r : Request) : (s.request r).device = s.device := rfl
@[simp] theorem request_faultCode (s : State) (r : Request) : (s.request r).faultCode = s.faultCode := rfl
@[simp] theorem request_sessionBase (s : State) (r : Request) : (s.request r).sessionBase = s.sessionBase := rfl
@[simp] theorem request_params (s : State) (r : Request) : (s.request r).params = s.params := rfl
@[simp] theorem request_idlePoll (s : State) (r : Request) : (s.request r).idlePoll = s.idlePoll := rfl
@[simp] theorem request_timebase (s : State) (r : Request) : (s.request r).timebase = s.timebase := rfl
@[simp] theorem request_regs (s : State) (r : Request) : (s.request r).regs = s.regs := rfl
@[simp] theorem request_chans (s : State) (r : Request) : (s.request r).chans = s.chans := rfl
@[simp] theorem request_events (s : State) (r : Request) : (s.request r).events = s.events := rfl
@[simp] theorem request_test (s : State) (r : Request) : (s.request r).test = s.test := rfl
@[simp] theorem request_frozen (s : State) (r : Request) : (s.request r).frozen = s.frozen := rfl
@[simp] theorem request_mem (s : State) (r : Request) : (s.request r).mem = s.mem := rfl
@[simp] theorem request_freeCount (s : State) (r : Request) : (s.request r).freeCount = s.freeCount := rfl
@[simp] theorem request_chan (s : State) (r : Request) (c : Chan) : (s.request r).chan c = s.chan c := rfl

@[simp] theorem request_port (s : State) (r : Request) : (s.request r).port
    = { s.port with arrivals := s.port.arrivals ++ [s.transaction r] } := rfl

/-! ## `freePort` -/

@[simp] theorem freePort_pending (s : State)  : (s.freePort).pending = s.pending := rfl
@[simp] theorem freePort_resetHeld (s : State)  : (s.freePort).resetHeld = s.resetHeld := rfl
@[simp] theorem freePort_device (s : State)  : (s.freePort).device = s.device := rfl
@[simp] theorem freePort_faultCode (s : State)  : (s.freePort).faultCode = s.faultCode := rfl
@[simp] theorem freePort_sessionBase (s : State)  : (s.freePort).sessionBase = s.sessionBase := rfl
@[simp] theorem freePort_params (s : State)  : (s.freePort).params = s.params := rfl
@[simp] theorem freePort_idlePoll (s : State)  : (s.freePort).idlePoll = s.idlePoll := rfl
@[simp] theorem freePort_timebase (s : State)  : (s.freePort).timebase = s.timebase := rfl
@[simp] theorem freePort_regs (s : State)  : (s.freePort).regs = s.regs := rfl
@[simp] theorem freePort_chans (s : State)  : (s.freePort).chans = s.chans := rfl
@[simp] theorem freePort_events (s : State)  : (s.freePort).events = s.events := rfl
@[simp] theorem freePort_test (s : State)  : (s.freePort).test = s.test := rfl
@[simp] theorem freePort_frozen (s : State)  : (s.freePort).frozen = s.frozen := rfl
@[simp] theorem freePort_mem (s : State)  : (s.freePort).mem = s.mem := rfl
@[simp] theorem freePort_freeCount (s : State)  : (s.freePort).freeCount = s.freeCount := rfl
@[simp] theorem freePort_chan (s : State)  (c : Chan) : (s.freePort).chan c = s.chan c := rfl

/-! ## `placeBytes` -/

@[simp] theorem placeBytes_pending (s : State) (t : Transaction) : (s.placeBytes t).pending = s.pending := rfl
@[simp] theorem placeBytes_resetHeld (s : State) (t : Transaction) : (s.placeBytes t).resetHeld = s.resetHeld := rfl
@[simp] theorem placeBytes_device (s : State) (t : Transaction) : (s.placeBytes t).device = s.device := rfl
@[simp] theorem placeBytes_faultCode (s : State) (t : Transaction) : (s.placeBytes t).faultCode = s.faultCode := rfl
@[simp] theorem placeBytes_sessionBase (s : State) (t : Transaction) : (s.placeBytes t).sessionBase = s.sessionBase := rfl
@[simp] theorem placeBytes_params (s : State) (t : Transaction) : (s.placeBytes t).params = s.params := rfl
@[simp] theorem placeBytes_idlePoll (s : State) (t : Transaction) : (s.placeBytes t).idlePoll = s.idlePoll := rfl
@[simp] theorem placeBytes_timebase (s : State) (t : Transaction) : (s.placeBytes t).timebase = s.timebase := rfl
@[simp] theorem placeBytes_regs (s : State) (t : Transaction) : (s.placeBytes t).regs = s.regs := rfl
@[simp] theorem placeBytes_chans (s : State) (t : Transaction) : (s.placeBytes t).chans = s.chans := rfl
@[simp] theorem placeBytes_events (s : State) (t : Transaction) : (s.placeBytes t).events = s.events := rfl
@[simp] theorem placeBytes_test (s : State) (t : Transaction) : (s.placeBytes t).test = s.test := rfl
@[simp] theorem placeBytes_port (s : State) (t : Transaction) : (s.placeBytes t).port = s.port := rfl
@[simp] theorem placeBytes_frozen (s : State) (t : Transaction) : (s.placeBytes t).frozen = s.frozen := rfl
@[simp] theorem placeBytes_freeCount (s : State) (t : Transaction) : (s.placeBytes t).freeCount = s.freeCount := rfl
@[simp] theorem placeBytes_chan (s : State) (t : Transaction) (c : Chan) : (s.placeBytes t).chan c = s.chan c := rfl

/-! ## `spoilBytes` -/

@[simp] theorem spoilBytes_pending (s : State) (t : Transaction) : (s.spoilBytes t).pending = s.pending := rfl
@[simp] theorem spoilBytes_resetHeld (s : State) (t : Transaction) : (s.spoilBytes t).resetHeld = s.resetHeld := rfl
@[simp] theorem spoilBytes_device (s : State) (t : Transaction) : (s.spoilBytes t).device = s.device := rfl
@[simp] theorem spoilBytes_faultCode (s : State) (t : Transaction) : (s.spoilBytes t).faultCode = s.faultCode := rfl
@[simp] theorem spoilBytes_sessionBase (s : State) (t : Transaction) : (s.spoilBytes t).sessionBase = s.sessionBase := rfl
@[simp] theorem spoilBytes_params (s : State) (t : Transaction) : (s.spoilBytes t).params = s.params := rfl
@[simp] theorem spoilBytes_idlePoll (s : State) (t : Transaction) : (s.spoilBytes t).idlePoll = s.idlePoll := rfl
@[simp] theorem spoilBytes_timebase (s : State) (t : Transaction) : (s.spoilBytes t).timebase = s.timebase := rfl
@[simp] theorem spoilBytes_regs (s : State) (t : Transaction) : (s.spoilBytes t).regs = s.regs := rfl
@[simp] theorem spoilBytes_chans (s : State) (t : Transaction) : (s.spoilBytes t).chans = s.chans := rfl
@[simp] theorem spoilBytes_events (s : State) (t : Transaction) : (s.spoilBytes t).events = s.events := rfl
@[simp] theorem spoilBytes_test (s : State) (t : Transaction) : (s.spoilBytes t).test = s.test := rfl
@[simp] theorem spoilBytes_port (s : State) (t : Transaction) : (s.spoilBytes t).port = s.port := rfl
@[simp] theorem spoilBytes_frozen (s : State) (t : Transaction) : (s.spoilBytes t).frozen = s.frozen := rfl
@[simp] theorem spoilBytes_chan (s : State) (t : Transaction) (c : Chan) : (s.spoilBytes t).chan c = s.chan c := rfl

end Sys2Proof.Machine
end

