-- ==== Sys2Proof/Laws/Memory.lean ====
section
/-! SUPPORT. The image of system memory: every write keeps the canonical form, and what a read gives after a write. -/

namespace Sys2Proof.Machine

theorem Memory.wf_write_aux (m : List Host.Cell) (address : Nat) (v : Byte) (h : Memory.wf m = true) :
    Memory.wf (Memory.write m address v) = true ∧
      ∀ x, (∀ b ∈ (m.head?), x < b.1) → x < address → ∀ b ∈ (Memory.write m address v).head?, x < b.1 := by
  induction m with
  | nil => simp [Memory.write, Memory.wf]
  | cons a rest ih =>
    obtain ⟨n, w⟩ := a
    have hrest : Memory.wf rest = true := by
      cases rest with
      | nil => rfl
      | cons b r => simp [Memory.wf] at h; exact h.2
    have hhead : ∀ b ∈ rest.head?, n < b.1 := by
      cases rest with
      | nil => simp
      | cons b r => simp [Memory.wf] at h; simpa using h.1
    unfold Memory.write
    split
    · rename_i hlt
      refine ⟨by simp [Memory.wf, hlt, h], ?_⟩
      intro x _ hx; simpa using hx
    · split
      · rename_i heq
        subst heq
        refine ⟨?_, by intro x _ hx; simpa using hx⟩
        cases rest with
        | nil => rfl
        | cons b r => simp [Memory.wf] at h ⊢; exact h
      · rename_i hn he
        have hlt : n < address := by omega
        obtain ⟨h1, h2⟩ := ih hrest
        refine ⟨?_, by intro x hx _; simpa using hx⟩
        have h3 := h2 n hhead hlt
        cases hw : Memory.write rest address v with
        | nil => rfl
        | cons b r =>
          rw [hw] at h1 h3
          simp [Memory.wf]
          exact ⟨by simpa using h3, h1⟩

/-- A write keeps the canonical form. -/
theorem Memory.wf_write (m : List Host.Cell) (address : Nat) (v : Byte) (h : Memory.wf m = true) :
    Memory.wf (Memory.write m address v) = true := (Memory.wf_write_aux m address v h).1

/-- Writing several bytes keeps the canonical form. -/
theorem Memory.wf_writeAll (m : List Host.Cell) (address : Nat) (bytes : List Byte) (h : Memory.wf m = true) :
    Memory.wf (Memory.writeAll m address bytes) = true := by
  induction bytes generalizing m address with
  | nil => exact h
  | cons v rest ih => exact ih _ _ (Memory.wf_write _ _ _ h)

/-- A byte written reads back. -/
theorem Memory.read_write (m : List Host.Cell) (address : Nat) (v : Byte) :
    Memory.read (Memory.write m address v) address = some v := by
  induction m with
  | nil => simp [Memory.write, Memory.read]
  | cons a rest ih =>
    obtain ⟨n, w⟩ := a
    unfold Memory.write
    split
    · simp [Memory.read]
    · split
      · simp [Memory.read]
      · rename_i h1 h2
        have : n ≠ address := fun h => h2 h.symm
        simp [Memory.read, this, ih]

/-- A write leaves every other byte as it was. -/
theorem Memory.read_write_ne (m : List Host.Cell) {address a : Nat} (v : Byte) (h : a ≠ address) :
    Memory.read (Memory.write m address v) a = Memory.read m a := by
  induction m with
  | nil => simp [Memory.write, Memory.read, Ne.symm h]
  | cons b rest ih =>
    obtain ⟨n, w⟩ := b
    unfold Memory.write
    split
    · simp [Memory.read, Ne.symm h]
    · split
      · rename_i _ he
        subst he
        simp [Memory.read, Ne.symm h]
      · simp [Memory.read, ih]

/-- Writing several bytes leaves every byte outside them as it was. -/
theorem Memory.read_writeAll_ne (m : List Host.Cell) (address a : Nat) (bytes : List Byte)
    (h : ∀ i, i < bytes.length → a ≠ busAddress (address + i)) :
    Memory.read (Memory.writeAll m address bytes) a = Memory.read m a := by
  induction bytes generalizing m address with
  | nil => rfl
  | cons v rest ih =>
    rw [Memory.writeAll, ih]
    · exact Memory.read_write_ne _ _ (by simpa using h 0 (by simp))
    · intro i hi
      have := h (i + 1) (by simpa using hi)
      rwa [show address + (i + 1) = address + 1 + i by omega] at this

/-- The bytes of a write that stays inside the 48-bit address space read back. -/
theorem Memory.read_writeAll (m : List Host.Cell) (address : Nat) (bytes : List Byte) (i : Nat) (hi : i < bytes.length)
    (h : address + bytes.length ≤ 2 ^ 48) :
    Memory.read (Memory.writeAll m address bytes) (address + i) = bytes[i]? := by
  induction bytes generalizing m address i with
  | nil => simp at hi
  | cons v rest ih =>
    have hbus : ∀ k, address + k < 2 ^ 48 → busAddress (address + k) = address + k := fun k hk => by
      unfold busAddress; exact if_pos hk
    simp only [List.length_cons] at h hi
    cases i with
    | zero =>
      rw [Memory.writeAll, Memory.read_writeAll_ne]
      · have := hbus 0 (by omega)
        simp only [Nat.add_zero] at this ⊢
        rw [this, Memory.read_write]; rfl
      · intro k hk
        have := hbus (1 + k) (by omega)
        rw [show address + 1 + k = address + (1 + k) by omega, this]; omega
    | succ j =>
      rw [Memory.writeAll, show address + (j + 1) = address + 1 + j by omega, ih _ _ j (by omega) (by omega)]
      rfl

/-- As many free bytes are drawn as are asked for. -/
theorem freeBytes_length (start count : Nat) : (freeBytes start count).length = count := by
  induction count generalizing start with
  | zero => rfl
  | succ n ih => simp [freeBytes, ih]

/-- The reset image is canonical. -/
theorem Memory.wf_reset : Memory.wf State.reset.mem = true := rfl

theorem placeBytes_wf (s : State) (t : Transaction) (h : Memory.wf s.mem = true) : Memory.wf (s.placeBytes t).mem = true :=
  Memory.wf_writeAll _ _ _ h

theorem spoilBytes_wf (s : State) (t : Transaction) (h : Memory.wf s.mem = true) : Memory.wf (s.spoilBytes t).mem = true :=
  Memory.wf_writeAll _ _ _ h

theorem spoilInFlight_wf (s : State) (h : Memory.wf s.mem = true) : Memory.wf s.spoilInFlight.mem = true := by
  unfold State.spoilInFlight
  split
  · exact h
  · exact spoilBytes_wf _ _ h

end Sys2Proof.Machine
end

