-- ==== Sys2Proof/Laws/Port.lean ====
section
/-! SUPPORT. What requests, arrivals and grants can do. -/

namespace Sys2Proof.Machine

/-! ## Only the port changes -/

theorem grantAs_eq (s : State) (f : Request → Transaction) : ∃ p, s.grantAs f = { s with port := p } := by
  unfold State.grantAs
  split
  · exact ⟨_, rfl⟩
  · exact ⟨s.port, rfl⟩

/-- What a grant leaves of the state. -/
theorem grant_eq (s : State) : ∃ p, s.grant = { s with port := p } := grantAs_eq s _

theorem arrive_eq (s : State) (t : Transaction) : ∃ p, s.arrive t = { s with port := p } := by
  obtain ⟨p, h⟩ := grantAs_eq ({ s with port := s.port.enlist t.request } : State) (s.keptTransaction t)
  exact ⟨p, h⟩

theorem arrivals_eq (l : List Transaction) (s : State) : ∃ p, l.foldl State.arrive s = { s with port := p } := by
  induction l generalizing s with
  | nil => exact ⟨s.port, rfl⟩
  | cons t l ih =>
    obtain ⟨p, hp⟩ := arrive_eq s t
    obtain ⟨q, hq⟩ := ih (s.arrive t)
    exact ⟨q, by rw [List.foldl_cons, hq, hp]⟩

/-- What the arrival of requests leaves of the state. -/
theorem arbitrate_eq (s : State) : ∃ p, s.arbitrate = { s with port := p } := by
  unfold State.arbitrate
  obtain ⟨p, hp⟩ := arrivals_eq s.port.arrivals { s with port := { s.port with arrivals := [] } }
  obtain ⟨q, hq⟩ := grant_eq { s with port := p }
  exact ⟨q, by rw [hp]; exact hq⟩

/-- What the grant at a completion leaves of the state. -/
theorem regrant_eq (s : State) : ∃ p, s.regrant = { s with port := p } := by
  obtain ⟨q, hq⟩ := grant_eq { s with port := s.port.enlistArrivals }
  exact ⟨q, hq⟩

@[simp] theorem grant_pending (s : State) : s.grant.pending = s.pending := by obtain ⟨p, h⟩ := grant_eq s; rw [h]
@[simp] theorem grant_resetHeld (s : State) : s.grant.resetHeld = s.resetHeld := by
  obtain ⟨p, h⟩ := grant_eq s; rw [h]
@[simp] theorem grant_device (s : State) : s.grant.device = s.device := by obtain ⟨p, h⟩ := grant_eq s; rw [h]
@[simp] theorem grant_faultCode (s : State) : s.grant.faultCode = s.faultCode := by
  obtain ⟨p, h⟩ := grant_eq s; rw [h]
@[simp] theorem grant_sessionBase (s : State) : s.grant.sessionBase = s.sessionBase := by
  obtain ⟨p, h⟩ := grant_eq s; rw [h]
@[simp] theorem grant_params (s : State) : s.grant.params = s.params := by obtain ⟨p, h⟩ := grant_eq s; rw [h]
@[simp] theorem grant_idlePoll (s : State) : s.grant.idlePoll = s.idlePoll := by
  obtain ⟨p, h⟩ := grant_eq s; rw [h]
@[simp] theorem grant_timebase (s : State) : s.grant.timebase = s.timebase := by
  obtain ⟨p, h⟩ := grant_eq s; rw [h]
@[simp] theorem grant_regs (s : State) : s.grant.regs = s.regs := by obtain ⟨p, h⟩ := grant_eq s; rw [h]
@[simp] theorem grant_chans (s : State) : s.grant.chans = s.chans := by obtain ⟨p, h⟩ := grant_eq s; rw [h]
@[simp] theorem grant_events (s : State) : s.grant.events = s.events := by obtain ⟨p, h⟩ := grant_eq s; rw [h]
@[simp] theorem grant_test (s : State) : s.grant.test = s.test := by obtain ⟨p, h⟩ := grant_eq s; rw [h]
@[simp] theorem grant_frozen (s : State) : s.grant.frozen = s.frozen := by obtain ⟨p, h⟩ := grant_eq s; rw [h]
@[simp] theorem grant_mem (s : State) : s.grant.mem = s.mem := by obtain ⟨p, h⟩ := grant_eq s; rw [h]
@[simp] theorem grant_freeCount (s : State) : s.grant.freeCount = s.freeCount := by
  obtain ⟨p, h⟩ := grant_eq s; rw [h]
@[simp] theorem grant_chan (s : State) (ch : Chan) : (s.grant).chan ch = s.chan ch := by
  obtain ⟨p, h⟩ := grant_eq s; rw [h]; rfl

@[simp] theorem arbitrate_pending (s : State) : s.arbitrate.pending = s.pending := by
  obtain ⟨p, h⟩ := arbitrate_eq s; rw [h]
@[simp] theorem arbitrate_resetHeld (s : State) : s.arbitrate.resetHeld = s.resetHeld := by
  obtain ⟨p, h⟩ := arbitrate_eq s; rw [h]
@[simp] theorem arbitrate_device (s : State) : s.arbitrate.device = s.device := by
  obtain ⟨p, h⟩ := arbitrate_eq s; rw [h]
@[simp] theorem arbitrate_faultCode (s : State) : s.arbitrate.faultCode = s.faultCode := by
  obtain ⟨p, h⟩ := arbitrate_eq s; rw [h]
@[simp] theorem arbitrate_sessionBase (s : State) : s.arbitrate.sessionBase = s.sessionBase := by
  obtain ⟨p, h⟩ := arbitrate_eq s; rw [h]
@[simp] theorem arbitrate_params (s : State) : s.arbitrate.params = s.params := by
  obtain ⟨p, h⟩ := arbitrate_eq s; rw [h]
@[simp] theorem arbitrate_idlePoll (s : State) : s.arbitrate.idlePoll = s.idlePoll := by
  obtain ⟨p, h⟩ := arbitrate_eq s; rw [h]
@[simp] theorem arbitrate_timebase (s : State) : s.arbitrate.timebase = s.timebase := by
  obtain ⟨p, h⟩ := arbitrate_eq s; rw [h]
@[simp] theorem arbitrate_regs (s : State) : s.arbitrate.regs = s.regs := by obtain ⟨p, h⟩ := arbitrate_eq s; rw [h]
@[simp] theorem arbitrate_chans (s : State) : s.arbitrate.chans = s.chans := by obtain ⟨p, h⟩ := arbitrate_eq s; rw [h]
@[simp] theorem arbitrate_events (s : State) : s.arbitrate.events = s.events := by
  obtain ⟨p, h⟩ := arbitrate_eq s; rw [h]
@[simp] theorem arbitrate_test (s : State) : s.arbitrate.test = s.test := by obtain ⟨p, h⟩ := arbitrate_eq s; rw [h]
@[simp] theorem arbitrate_frozen (s : State) : s.arbitrate.frozen = s.frozen := by obtain ⟨p, h⟩ := arbitrate_eq s; rw [h]
@[simp] theorem arbitrate_mem (s : State) : s.arbitrate.mem = s.mem := by obtain ⟨p, h⟩ := arbitrate_eq s; rw [h]
@[simp] theorem arbitrate_freeCount (s : State) : s.arbitrate.freeCount = s.freeCount := by
  obtain ⟨p, h⟩ := arbitrate_eq s; rw [h]
@[simp] theorem arbitrate_chan (s : State) (ch : Chan) : (s.arbitrate).chan ch = s.chan ch := by
  obtain ⟨p, h⟩ := arbitrate_eq s; rw [h]; rfl

@[simp] theorem regrant_pending (s : State) : s.regrant.pending = s.pending := by
  obtain ⟨p, h⟩ := regrant_eq s; rw [h]
@[simp] theorem regrant_resetHeld (s : State) : s.regrant.resetHeld = s.resetHeld := by
  obtain ⟨p, h⟩ := regrant_eq s; rw [h]
@[simp] theorem regrant_device (s : State) : s.regrant.device = s.device := by obtain ⟨p, h⟩ := regrant_eq s; rw [h]
@[simp] theorem regrant_faultCode (s : State) : s.regrant.faultCode = s.faultCode := by
  obtain ⟨p, h⟩ := regrant_eq s; rw [h]
@[simp] theorem regrant_sessionBase (s : State) : s.regrant.sessionBase = s.sessionBase := by
  obtain ⟨p, h⟩ := regrant_eq s; rw [h]
@[simp] theorem regrant_params (s : State) : s.regrant.params = s.params := by obtain ⟨p, h⟩ := regrant_eq s; rw [h]
@[simp] theorem regrant_idlePoll (s : State) : s.regrant.idlePoll = s.idlePoll := by
  obtain ⟨p, h⟩ := regrant_eq s; rw [h]
@[simp] theorem regrant_timebase (s : State) : s.regrant.timebase = s.timebase := by
  obtain ⟨p, h⟩ := regrant_eq s; rw [h]
@[simp] theorem regrant_regs (s : State) : s.regrant.regs = s.regs := by obtain ⟨p, h⟩ := regrant_eq s; rw [h]
@[simp] theorem regrant_chans (s : State) : s.regrant.chans = s.chans := by obtain ⟨p, h⟩ := regrant_eq s; rw [h]
@[simp] theorem regrant_events (s : State) : s.regrant.events = s.events := by obtain ⟨p, h⟩ := regrant_eq s; rw [h]
@[simp] theorem regrant_test (s : State) : s.regrant.test = s.test := by obtain ⟨p, h⟩ := regrant_eq s; rw [h]
@[simp] theorem regrant_frozen (s : State) : s.regrant.frozen = s.frozen := by obtain ⟨p, h⟩ := regrant_eq s; rw [h]
@[simp] theorem regrant_mem (s : State) : s.regrant.mem = s.mem := by obtain ⟨p, h⟩ := regrant_eq s; rw [h]
@[simp] theorem regrant_freeCount (s : State) : s.regrant.freeCount = s.freeCount := by
  obtain ⟨p, h⟩ := regrant_eq s; rw [h]
@[simp] theorem regrant_chan (s : State) (ch : Chan) : (s.regrant).chan ch = s.chan ch := by
  obtain ⟨p, h⟩ := regrant_eq s; rw [h]; rfl

/-! ## The guard count -/

theorem guardAfter_le (p : Port) : p.guardAfter ≤ 8 := by
  unfold Port.guardAfter; split
  · exact Nat.min_le_left ..
  · exact Nat.zero_le _

theorem depart_guard_le (p : Port) (r : Request) : (p.depart r).guard ≤ 8 := by
  unfold Port.depart
  split
  · exact Nat.zero_le _
  · split <;> exact guardAfter_le p

/-! ## What a request does to the queues -/

/-- A request that joins changes the queues alone. -/
theorem join_others (q : Port) (r : Request) :
    q.join r = { q with
      classA := (q.join r).classA, classB := (q.join r).classB, classC := (q.join r).classC } := by
  cases r <;> rfl

theorem enlist_others (q : Port) (r : Request) :
    q.enlist r = { q with
      classA := (q.enlist r).classA, classB := (q.enlist r).classB, classC := (q.enlist r).classC } := by
  unfold Port.enlist; split
  · rfl
  · exact join_others q r

theorem Port.reset_sorted : Port.reset.Sorted :=
  ⟨fun _ h => absurd h List.not_mem_nil, fun _ h => absurd h List.not_mem_nil⟩

theorem join_sorted (q : Port) (r : Request) (h : q.Sorted) : (q.join r).Sorted := by
  have key : ∀ r : Request, r.classOf ≠ .c →
      Port.Sorted (if r.classOf = .a then { q with classA := q.classA ++ [r] }
        else { q with classB := q.classB ++ [r] }) := by
    intro r hr
    split
    · rename_i ha
      refine ⟨fun x hx => ?_, h.2⟩
      rcases List.mem_append.1 hx with hx | hx
      · exact h.1 x hx
      · rw [List.mem_singleton.1 hx]; exact ha
    · rename_i ha
      refine ⟨h.1, fun x hx => ?_⟩
      rcases List.mem_append.1 hx with hx | hx
      · exact h.2 x hx
      · rw [List.mem_singleton.1 hx]
        cases hc : r.classOf
        · exact absurd hc ha
        · rfl
        · exact absurd hc hr
  cases r
  case recordBurst ch => exact h
  all_goals exact key _ (by intro hc; cases hc)

theorem enlist_sorted (q : Port) (r : Request) (h : q.Sorted) : (q.enlist r).Sorted := by
  unfold Port.enlist; split
  · exact h
  · exact join_sorted q r h

/-- A request that joins the queues is queued, and so are those that were. -/
theorem join_queued (q : Port) (r x : Request) : (q.join r).queued x = (q.queued x || x == r) := by
  have key : ∀ r x : Request, r.classOf ≠ .c → x.classOf ≠ .c →
      let p : Port := if r.classOf = .a then { q with classA := q.classA ++ [r] } else { q with classB := q.classB ++ [r] }
      (p.classA.contains x || p.classB.contains x) = ((q.classA.contains x || q.classB.contains x) || x == r) := by
    intro r x _ _
    dsimp only
    have hb : ∀ l : List Request, (l ++ [r]).contains x = (l.contains x || x == r) := fun l => by
      by_cases h : x = r
      · subst h; simp
      · simp [h]
    split
    · simp only [hb]
      cases q.classA.contains x <;> cases q.classB.contains x <;> simp
    · simp only [hb]
      cases q.classA.contains x <;> cases q.classB.contains x <;> simp
  cases r
  case recordBurst ch =>
    cases x
    case recordBurst c =>
      show (q.classC.set ch true).get c = (q.classC.get c || _)
      by_cases h : c = ch
      · subst h; rw [PerChannel.get_set]; simp
      · rw [PerChannel.get_set_ne _ _ h]; simp [h]
    all_goals exact (Bool.or_false _).symm
  all_goals
    cases x
    case recordBurst c => first | exact (Bool.or_false _).symm
    all_goals exact key _ _ (by intro hc; cases hc) (by intro hc; cases hc)

/-- A request that arrives is queued, and so are those that were. -/
theorem enlist_queued (q : Port) (r x : Request) : (q.enlist r).queued x = (q.queued x || x == r) := by
  unfold Port.enlist; split
  · rename_i h
    by_cases hx : x = r
    · subst hx; rw [h]; rfl
    · simp [hx]
  · exact join_queued q r x

/-- A request of class B that is not queued joins the tail of its queue; one of another class, or queued, leaves it. -/
theorem enlist_classB (q : Port) (r : Request) :
    (q.enlist r).classB = if r.classOf = .b ∧ q.queued r = false then q.classB ++ [r] else q.classB := by
  unfold Port.enlist
  cases hq : q.queued r with
  | true => simp
  | false =>
    cases r <;> simp [Port.join, Request.classOf]

/-- The class B requests that wait keep their places while others join. -/
theorem foldl_enlist_classB (l : List Transaction) (q : Port) :
    ∃ m, (l.foldl (fun q t => q.enlist t.request) q).classB = q.classB ++ m := by
  induction l generalizing q with
  | nil => exact ⟨[], (List.append_nil _).symm⟩
  | cons t l ih =>
    obtain ⟨m, hm⟩ := ih (q.enlist t.request)
    rw [List.foldl_cons, hm, enlist_classB]
    split
    · exact ⟨t.request :: m, by rw [List.append_assoc]; rfl⟩
    · exact ⟨m, rfl⟩

/-! ## The grant -/

/-- After a grant the port is not idle while a request waits. -/
theorem grantAs_granted (s : State) (f : Request → Transaction) : (s.grantAs f).port.Granted := by
  unfold State.grantAs
  split
  · exact Or.inl (by simp)
  · rename_i h
    cases hf : s.port.inFlight with
    | some t => exact Or.inl (by simp [hf])
    | none =>
      cases hc : s.port.choice with
      | none => exact Or.inr hc
      | some r => exact absurd hc (h r hf)

/-- A grant that finds nothing to do. -/
theorem grantAs_of_granted (s : State) (f : Request → Transaction) (h : s.port.Granted) : s.grantAs f = s := by
  unfold State.grantAs
  split
  · rename_i r h1 h2
    rcases h with h | h
    · exact absurd h1 h
    · rw [h] at h2; cases h2
  · rfl

theorem depart_sorted (p : Port) (r : Request) (h : p.Sorted) : (p.depart r).Sorted := by
  unfold Port.depart
  split
  · exact h
  · split
    · exact ⟨fun x hx => h.1 x (List.mem_of_mem_erase hx), h.2⟩
    · exact ⟨h.1, fun x hx => h.2 x (List.mem_of_mem_erase hx)⟩

theorem depart_arrivals (p : Port) (r : Request) : (p.depart r).arrivals = p.arrivals := by
  unfold Port.depart; split
  · rfl
  · split <;> rfl

theorem transaction_request (s : State) (r : Request) : (s.transaction r).request = r := by cases r <;> rfl

theorem transaction_expected (s : State) (r : Request) : (s.transaction r).orphan = false := by cases r <;> rfl

theorem transaction_reads (s : State) (r : Request) (h : r.isWrite = false) : (s.transaction r).data = [] := by
  cases r <;> first | rfl | cases h

/-- The transaction of a request is as the request makes it. -/
theorem transaction_made (s : State) (r : Request) : (s.transaction r).Made :=
  ⟨transaction_expected s r, fun h => transaction_reads s r (by rwa [transaction_request] at h)⟩

theorem keptTransaction_request (s : State) (t : Transaction) (r : Request) :
    (s.keptTransaction t r).request = r := by
  unfold State.keptTransaction; split
  · rename_i h; exact h.symm
  · exact transaction_request s r

theorem keptTransaction_made (s : State) {t : Transaction} (h : t.Made) (r : Request) : (s.keptTransaction t r).Made := by
  unfold State.keptTransaction; split
  · exact h
  · exact transaction_made s r

/-- What every arrival and every grant keeps of the port: the guard count within its bound, the queues sorted, and a read in
flight without bytes. -/
structure Port.Kept (p : Port) : Prop where
  guard : p.guard ≤ 8
  sorted : p.Sorted
  reads : p.ReadsCarryNothing

theorem grantAs_kept (s : State) {f : Request → Transaction} (hm : ∀ r, (f r).Made) (h : s.port.Kept) :
    (s.grantAs f).port.Kept := by
  unfold State.grantAs
  split
  · refine ⟨depart_guard_le _ _, depart_sorted s.port _ h.sorted, ?_⟩
    intro t ht hr
    simp only [Option.some.injEq] at ht
    subst ht
    exact (hm _).2 hr
  · exact h

theorem grantAs_arrivals (s : State) (f : Request → Transaction) : (s.grantAs f).port.arrivals = s.port.arrivals := by
  unfold State.grantAs
  split
  · exact depart_arrivals s.port _
  · rfl

theorem enlist_kept (q : Port) (r : Request) (h : q.Kept) : (q.enlist r).Kept where
  guard := by rw [enlist_others]; exact h.guard
  sorted := enlist_sorted q r h.sorted
  reads := by rw [enlist_others]; exact h.reads

theorem enlist_arrivals (q : Port) (r : Request) : (q.enlist r).arrivals = q.arrivals := by rw [enlist_others]

theorem arrive_kept (s : State) {t : Transaction} (hm : t.Made) (h : s.port.Kept) : (s.arrive t).port.Kept :=
  grantAs_kept _ (keptTransaction_made s hm) (enlist_kept s.port _ h)

theorem arrive_arrivals (s : State) (t : Transaction) : (s.arrive t).port.arrivals = s.port.arrivals :=
  (grantAs_arrivals _ _).trans (enlist_arrivals s.port _)

theorem foldl_arrive_kept (l : List Transaction) (s : State) (hm : ∀ t ∈ l, t.Made) (h : s.port.Kept) :
    (l.foldl State.arrive s).port.Kept := by
  induction l generalizing s with
  | nil => exact h
  | cons t l ih =>
    exact ih (s.arrive t) (fun x hx => hm x (List.mem_cons_of_mem _ hx)) (arrive_kept s (hm t List.mem_cons_self) h)

theorem foldl_arrive_arrivals (l : List Transaction) (s : State) :
    (l.foldl State.arrive s).port.arrivals = s.port.arrivals := by
  induction l generalizing s with
  | nil => rfl
  | cons t l ih => exact (ih (s.arrive t)).trans (arrive_arrivals s t)

/-- The arrival of requests keeps what every arrival keeps. -/
theorem arbitrate_kept (s : State) (hm : ∀ t ∈ s.port.arrivals, t.Made) (h : s.port.Kept) : s.arbitrate.port.Kept :=
  grantAs_kept _ (transaction_made _) (foldl_arrive_kept _ _ hm ⟨h.guard, h.sorted, h.reads⟩)

/-- Every request has arrived. -/
theorem arbitrate_arrivals (s : State) : s.arbitrate.port.arrivals = [] :=
  (grantAs_arrivals _ _).trans (foldl_arrive_arrivals _ _)

theorem arbitrate_granted (s : State) : s.arbitrate.port.Granted := grantAs_granted _ _

/-- Nothing is requested and no grant is due. -/
theorem arbitrate_of_granted (s : State) (h : s.port.Granted) (ha : s.port.arrivals = []) : s.arbitrate = s := by
  have he : ({ s with port := { s.port with arrivals := [] } } : State) = s := by rw [← ha]
  unfold State.arbitrate
  rw [ha, List.foldl_nil, he]
  exact grantAs_of_granted s _ h

theorem foldl_enlist_kept (l : List Transaction) (q : Port) (h : q.Kept) :
    (l.foldl (fun q t => q.enlist t.request) q).Kept := by
  induction l generalizing q with
  | nil => exact h
  | cons t l ih => exact ih _ (enlist_kept q _ h)

theorem foldl_enlist_arrivals (l : List Transaction) (q : Port) :
    (l.foldl (fun q t => q.enlist t.request) q).arrivals = q.arrivals := by
  induction l generalizing q with
  | nil => rfl
  | cons t l ih => exact (ih _).trans (enlist_arrivals q _)

/-- The grant at a completion keeps what every arrival keeps. -/
theorem regrant_kept (s : State) (h : s.port.Kept) : s.regrant.port.Kept :=
  grantAs_kept _ (transaction_made _) (foldl_enlist_kept _ _ ⟨h.guard, h.sorted, h.reads⟩)

theorem regrant_arrivals (s : State) : s.regrant.port.arrivals = [] :=
  (grantAs_arrivals _ _).trans (foldl_enlist_arrivals _ _)

theorem regrant_granted (s : State) : s.regrant.port.Granted := grantAs_granted _ _

theorem regrant_of_granted (s : State) (h : s.port.Granted) (ha : s.port.arrivals = []) : s.regrant = s := by
  have he : s.port.enlistArrivals = s.port := by unfold Port.enlistArrivals; rw [ha, List.foldl_nil, ← ha]
  unfold State.regrant; rw [he]
  exact grantAs_of_granted s _ h

/-! ## What is outstanding -/

/-- A request made is a request that waits, and those that waited go on waiting. -/
@[simp] theorem request_waiting (s : State) (r x : Request) :
    (s.request r).port.waiting x = (s.port.waiting x || x == r) := by
  have hq : (s.request r).port.queued x = s.port.queued x := by cases x <;> rfl
  have he : (s.request r).port.arrivals = s.port.arrivals ++ [s.transaction r] := rfl
  have hc : (r == x) = (x == r) := by rw [Bool.eq_iff_iff]; simp only [beq_iff_eq]; exact eq_comm
  unfold Port.waiting
  rw [hq, he, List.any_append, Bool.or_assoc]
  simp only [List.any_cons, List.any_nil, Bool.or_false, transaction_request, hc]

theorem request_waits (s : State) (r : Request) : (s.request r).port.waiting r = true := by
  rw [request_waiting, beq_self_eq_true, Bool.or_true]

theorem requestRead_outstanding (s : State) (r : Request) : (s.requestRead r).port.outstanding r = true := by
  unfold State.requestRead; split
  · assumption
  · unfold Port.outstanding; rw [request_waits, Bool.true_or]

/-- The request of a class C choice is queued. -/
theorem classCChoice_queued (p : Port) {ch : Chan} (h : p.classCChoice = some ch) : p.classC.get ch = true :=
  List.find?_some h

/-- R177: the request granted is one that is queued. -/
theorem choice_queued (p : Port) (h : p.Sorted) {r : Request} (hr : p.choice = some r) : p.queued r = true := by
  have hc : ∀ r, p.classCChoice.map Request.recordBurst = some r → p.queued r = true := by
    intro r hr
    obtain ⟨ch, hch, rfl⟩ := Option.map_eq_some_iff.1 hr
    exact classCChoice_queued p hch
  have hab : ∀ r : Request, r.classOf ≠ .c → (r ∈ p.classA ∨ r ∈ p.classB) → p.queued r = true := by
    intro r hr hm
    have : (p.classA.contains r || p.classB.contains r) = true := by
      rcases hm with hm | hm <;> simp [hm]
    cases r
    case recordBurst ch => exact absurd rfl hr
    all_goals exact this
  unfold Port.choice at hr
  dsimp only at hr
  split at hr
  · exact hc r hr
  · split at hr
    · rename_i q l hq
      cases hr
      have hm : r ∈ p.classA := by rw [hq]; exact List.mem_cons_self
      exact hab r (by rw [h.1 r hm]; exact RequestClass.noConfusion) (Or.inl hm)
    · rename_i q l _ hq
      cases hr
      have hm : r ∈ p.classB := by rw [hq]; exact List.mem_cons_self
      exact hab r (by rw [h.2 r hm]; exact RequestClass.noConfusion) (Or.inr hm)
    · exact hc r hr

/-- A request other than the one granted stays in its queue. -/
theorem depart_queued (p : Port) {q r : Request} (h : r ≠ q) : (p.depart q).queued r = p.queued r := by
  have he : ∀ l : List Request, (l.erase q).contains r = l.contains r := fun l => by
    simp [List.mem_erase_of_ne h]
  have key : ((if q.classOf = .a then { p with classA := p.classA.erase q, guard := p.guardAfter }
        else { p with classB := p.classB.erase q, guard := p.guardAfter } : Port)).queued r = p.queued r := by
    cases r
    case recordBurst c => split <;> rfl
    all_goals split <;> (unfold Port.queued; simp only [he])
  cases q
  case recordBurst ch =>
    cases r
    case recordBurst c =>
      exact PerChannel.get_set_ne p.classC false fun hc => h (by rw [hc])
    all_goals rfl
  all_goals exact key

/-- What is outstanding depends on the queues, the requests made and the transaction in flight alone. -/
theorem outstanding_split (p : Port) (r : Request) :
    p.outstanding r = (p.queued r || (p.arrivals.any fun t => t.request == r) || p.flying r) := rfl

/-- A grant leaves what is outstanding outstanding, and makes nothing outstanding that was not. -/
theorem grantAs_outstanding (s : State) {f : Request → Transaction} (hf : ∀ r, (f r).request = r) (hm : ∀ r, (f r).Made)
    (h : s.port.Sorted) (r : Request) : (s.grantAs f).port.outstanding r = s.port.outstanding r := by
  unfold State.grantAs
  split
  · rename_i q hn hq
    have h0 : s.port.flying r = false := by unfold Port.flying; rw [hn]; rfl
    have hw : ({ s.port.depart q with inFlight := some (f q), timer := some 0 } : Port).queued r
        = (s.port.depart q).queued r := by cases r <;> rfl
    have hg : ({ s.port.depart q with inFlight := some (f q), timer := some 0 } : Port).flying r = (q == r) := by
      unfold Port.flying
      simp [hf q, (hm q).1]
    show Port.outstanding _ r = _
    rw [outstanding_split, outstanding_split, hw, hg, h0, Bool.or_false]
    show ((s.port.depart q).queued r || ((s.port.depart q).arrivals.any _) || _) = _
    rw [depart_arrivals]
    by_cases hr : r = q
    · subst hr
      rw [choice_queued s.port h hq]; simp
    · rw [depart_queued s.port hr]
      have : (q == r) = false := by simpa using Ne.symm hr
      rw [this, Bool.or_false]
  · rfl

theorem grant_outstanding (s : State) (h : s.port.Sorted) (r : Request) :
    s.grant.port.outstanding r = s.port.outstanding r :=
  grantAs_outstanding s (transaction_request s) (transaction_made s) h r

theorem flying_enlist (q : Port) (x r : Request) : (q.enlist x).flying r = q.flying r := by
  unfold Port.flying; rw [enlist_others]

theorem enlist_outstanding (q : Port) (x r : Request) : (q.enlist x).outstanding r = (q.outstanding r || r == x) := by
  rw [outstanding_split, outstanding_split, enlist_queued, enlist_arrivals, flying_enlist]
  cases q.queued r <;> cases (q.arrivals.any fun t => t.request == r) <;> cases q.flying r <;> simp

theorem arrive_outstanding (s : State) {t : Transaction} (hm : t.Made) (h : s.port.Sorted) (r : Request) :
    (s.arrive t).port.outstanding r = (s.port.outstanding r || r == t.request) :=
  (grantAs_outstanding _ (keptTransaction_request s t) (keptTransaction_made s hm) (enlist_sorted s.port _ h) r).trans
    (enlist_outstanding s.port _ r)

theorem arrive_sorted (s : State) (t : Transaction) (h : s.port.Sorted) : (s.arrive t).port.Sorted := by
  unfold State.arrive State.grantAs
  split
  · exact depart_sorted _ _ (enlist_sorted s.port _ h)
  · exact enlist_sorted s.port _ h

theorem foldl_arrive_outstanding (l : List Transaction) (s : State) (hm : ∀ t ∈ l, t.Made) (h : s.port.Sorted)
    (r : Request) : (l.foldl State.arrive s).port.outstanding r
      = (s.port.outstanding r || l.any fun t => t.request == r) := by
  induction l generalizing s with
  | nil => simp
  | cons t l ih =>
    have hc : (r == t.request) = (t.request == r) := by rw [Bool.eq_iff_iff]; simp only [beq_iff_eq]; exact eq_comm
    rw [List.foldl_cons, ih (s.arrive t) (fun x hx => hm x (List.mem_cons_of_mem _ hx)) (arrive_sorted s t h),
      arrive_outstanding s (hm t List.mem_cons_self) h, List.any_cons, Bool.or_assoc, hc]

theorem foldl_arrive_sorted (l : List Transaction) (s : State) (h : s.port.Sorted) :
    (l.foldl State.arrive s).port.Sorted := by
  induction l generalizing s with
  | nil => exact h
  | cons t l ih => exact ih _ (arrive_sorted s t h)

/-- The arrival of the requests made makes nothing outstanding that was not, and loses nothing that was. -/
theorem arbitrate_outstanding (s : State) (hm : ∀ t ∈ s.port.arrivals, t.Made) (h : s.port.Sorted) (r : Request) :
    s.arbitrate.port.outstanding r = s.port.outstanding r := by
  have hq : ({ s.port with arrivals := [] } : Port).queued r = s.port.queued r := by cases r <;> rfl
  have hf : ({ s.port with arrivals := [] } : Port).flying r = s.port.flying r := rfl
  refine (grant_outstanding _ (foldl_arrive_sorted s.port.arrivals { s with port := { s.port with arrivals := [] } } h)
    r).trans ?_
  refine (foldl_arrive_outstanding s.port.arrivals { s with port := { s.port with arrivals := [] } } hm h r).trans ?_
  rw [outstanding_split, outstanding_split, hq, hf, List.any_nil, Bool.or_false]
  cases s.port.queued r <;> cases s.port.flying r <;> simp

theorem foldl_enlist_outstanding (l : List Transaction) (q : Port) (r : Request) :
    (l.foldl (fun q t => q.enlist t.request) q).outstanding r = (q.outstanding r || l.any fun t => t.request == r) := by
  induction l generalizing q with
  | nil => simp
  | cons t l ih =>
    have hc : (r == t.request) = (t.request == r) := by rw [Bool.eq_iff_iff]; simp only [beq_iff_eq]; exact eq_comm
    rw [List.foldl_cons, ih, enlist_outstanding, List.any_cons, Bool.or_assoc, hc]

theorem foldl_enlist_sorted (l : List Transaction) (q : Port) (h : q.Sorted) :
    (l.foldl (fun q t => q.enlist t.request) q).Sorted := by
  induction l generalizing q with
  | nil => exact h
  | cons t l ih => exact ih _ (enlist_sorted q _ h)

/-- The grant at a completion makes nothing outstanding that was not, and loses nothing that was. -/
theorem regrant_outstanding (s : State) (h : s.port.Sorted) (r : Request) :
    s.regrant.port.outstanding r = s.port.outstanding r := by
  have hq : ({ s.port with arrivals := [] } : Port).queued r = s.port.queued r := by cases r <;> rfl
  have hf : ({ s.port with arrivals := [] } : Port).flying r = s.port.flying r := rfl
  refine (grant_outstanding _ (foldl_enlist_sorted s.port.arrivals { s.port with arrivals := [] } h) r).trans ?_
  refine (foldl_enlist_outstanding s.port.arrivals _ r).trans ?_
  rw [outstanding_split, outstanding_split, hq, hf, List.any_nil, Bool.or_false]
  cases s.port.queued r <;> cases s.port.flying r <;> simp

/-! ## One request -/

/-- What a transaction carries does not depend on the port. -/
theorem transaction_port (s : State) (p : Port) (r : Request) :
    ({ s with port := p } : State).transaction r = s.transaction r := by cases r <;> rfl

/-- R176, R177: the one request of a command arrives, and no further grant is due. -/
theorem request_arbitrate (s : State) (r : Request) (h : s.port.arrivals = []) :
    (s.request r).arbitrate = s.arrive (s.transaction r) := by
  have hs : ({ s with port := { s.port with arrivals := [] } } : State) = s := by rw [← h]
  have ha : (s.request r).port.arrivals = [s.transaction r] := by
    show s.port.arrivals ++ [s.transaction r] = _
    rw [h, List.nil_append]
  have he : ({ s.request r with port := { (s.request r).port with arrivals := [] } } : State) = s := hs
  unfold State.arbitrate
  rw [ha, List.foldl_cons, List.foldl_nil, he]
  exact grantAs_of_granted _ _ (grantAs_granted _ _)

end Sys2Proof.Machine
end

