-- ==== Sys2Proof/Laws/Keeps.lean ====
section
/-! SUPPORT. The frame of every operation on the channels, the Event Unit and the requests that wait: one lemma for each. -/

namespace Sys2Proof.Machine

variable {p : Chan → Prop} {s t u : State} {ch : Chan}

theorem Keeps.refl (p : Chan → Prop) (s : State) : Keeps p s s where
  pending := rfl
  resetHeld := rfl
  device := rfl
  faultCode := rfl
  sessionBase := rfl
  params := rfl
  idlePoll := rfl
  timebase := rfl
  regs := rfl
  test := rfl
  frozen := rfl
  mem := rfl
  freeCount := rfl
  port := ⟨[], by rw [List.append_nil], fun _ h => absurd h List.not_mem_nil⟩
  queue := id
  others := fun _ _ => rfl
  buffers := id

theorem Keeps.trans (h : Keeps p s t) (k : Keeps p t u) : Keeps p s u where
  pending := k.pending.trans h.pending
  resetHeld := k.resetHeld.trans h.resetHeld
  device := k.device.trans h.device
  faultCode := k.faultCode.trans h.faultCode
  sessionBase := k.sessionBase.trans h.sessionBase
  params := k.params.trans h.params
  idlePoll := k.idlePoll.trans h.idlePoll
  timebase := k.timebase.trans h.timebase
  regs := k.regs.trans h.regs
  test := k.test.trans h.test
  frozen := k.frozen.trans h.frozen
  mem := k.mem.trans h.mem
  freeCount := k.freeCount.trans h.freeCount
  port := by
    obtain ⟨l, hl, hm⟩ := h.port
    obtain ⟨n, hn, km⟩ := k.port
    refine ⟨l ++ n, by rw [hn, hl, List.append_assoc], fun x hx => ?_⟩
    rcases List.mem_append.1 hx with hx | hx
    · exact hm x hx
    · exact km x hx
  queue := fun q => k.queue (h.queue q)
  others := fun c hc => (k.others c hc).trans (h.others c hc)
  buffers := fun b => k.buffers (h.buffers b)

/-! ## What a frame says of the port -/

theorem Keeps.inFlight (h : Keeps p s t) : t.port.inFlight = s.port.inFlight := by
  obtain ⟨l, hl, _⟩ := h.port; rw [hl]
theorem Keeps.timer (h : Keeps p s t) : t.port.timer = s.port.timer := by obtain ⟨l, hl, _⟩ := h.port; rw [hl]
theorem Keeps.guard (h : Keeps p s t) : t.port.guard = s.port.guard := by obtain ⟨l, hl, _⟩ := h.port; rw [hl]
theorem Keeps.roundRobin (h : Keeps p s t) : t.port.roundRobin = s.port.roundRobin := by
  obtain ⟨l, hl, _⟩ := h.port; rw [hl]
theorem Keeps.sorted (h : Keeps p s t) (k : s.port.Sorted) : t.port.Sorted := by
  obtain ⟨l, hl, _⟩ := h.port; rw [hl]; exact k
theorem Keeps.made (h : Keeps p s t) (k : ∀ x ∈ s.port.arrivals, x.Made) : ∀ x ∈ t.port.arrivals, x.Made := by
  obtain ⟨l, hl, hm⟩ := h.port
  rw [hl]
  intro x hx
  rcases List.mem_append.1 hx with hx | hx
  · exact k x hx
  · exact hm x hx

/-- Requests that wait go on waiting. -/
theorem Keeps.waiting (h : Keeps p s t) (r : Request) (w : s.port.waiting r = true) : t.port.waiting r = true := by
  obtain ⟨l, hl, _⟩ := h.port
  have hq : t.port.queued r = s.port.queued r := by rw [hl]; cases r <;> rfl
  unfold Port.waiting at w ⊢
  rw [hq, hl, List.any_append, ← Bool.or_assoc, w, Bool.true_or]

/-- A frame that keeps every channel keeps any of them. -/
theorem KeepsChans.but (h : KeepsChans s t) : Keeps p s t := { h with others := fun c _ => h.others c trivial }

/-- A frame that keeps all channels but one keeps at least none. -/
theorem KeepsBut.none (h : KeepsBut ch s t) : Keeps (fun _ => False) s t := { h with others := fun _ hc => hc.elim }

/-! ## Updates -/

theorem modChan_keeps (s : State) (ch : Chan) (f : Channel → Channel)
    (h : (s.chan ch).BuffersApart → (f (s.chan ch)).BuffersApart) : KeepsBut ch s (s.modChan ch f) :=
  { Keeps.refl (· ≠ ch) s with
    others := fun _ hc => chan_modChan_ne s f hc
    buffers := fun b c => by
      by_cases hc : c = ch
      · subst hc; rw [chan_modChan s c f]; exact h (b c)
      · rw [chan_modChan_ne s f hc]; exact b c }

theorem modProg_keeps (s : State) (ch : Chan) (f : ProgramUnit → ProgramUnit) : KeepsBut ch s (s.modProg ch f) :=
  modChan_keeps s ch _ id
theorem modSync_keeps (s : State) (ch : Chan) (f : Synchronizer → Synchronizer) : KeepsBut ch s (s.modSync ch f) :=
  modChan_keeps s ch _ id
theorem modMonitor_keeps (s : State) (ch : Chan) (f : Monitor → Monitor) : KeepsBut ch s (s.modMonitor ch f) :=
  modChan_keeps s ch _ id
theorem modWb_keeps (s : State) (ch : Chan) (f : Writeback → Writeback) : KeepsBut ch s (s.modWb ch f) :=
  modChan_keeps s ch _ id
theorem modStats_keeps (s : State) (ch : Chan) (f : Statistics → Statistics) : KeepsBut ch s (s.modStats ch f) :=
  modChan_keeps s ch _ id
theorem count_keeps (s : State) (ch : Chan) (f : Counters → Counters) : KeepsBut ch s (s.count ch f) :=
  modStats_keeps s ch _
theorem modCapture_keeps (s : State) (ch : Chan) (f : Capture → Capture)
    (h : (s.chan ch).capture.buffers.Nodup → (f (s.chan ch).capture).buffers.Nodup) :
    KeepsBut ch s (s.modCapture ch f) := modChan_keeps s ch _ h

theorem modEvents_keeps (s : State) (f : EventUnit → EventUnit)
    (h : s.events.queue.length ≤ 16 → (f s.events).queue.length ≤ 16) : KeepsChans s (s.modEvents f) :=
  { Keeps.refl _ s with queue := h }

theorem request_keeps (s : State) (r : Request) : KeepsChans s (s.request r) :=
  { Keeps.refl _ s with
    port := ⟨[s.transaction r], rfl, fun x hx => by rw [List.mem_singleton.1 hx]; exact transaction_made s r⟩ }

theorem requestRead_keeps (s : State) (r : Request) : KeepsChans s (s.requestRead r) := by
  unfold State.requestRead; split
  · exact .refl _ s
  · exact request_keeps s r

/-! ## The Event Unit -/

theorem journalWrite_keeps (s : State) : KeepsChans s s.journalWrite := by
  unfold State.journalWrite; split
  · exact .refl _ s
  · exact (modEvents_keeps s _ id).trans (request_keeps _ _)

theorem journalNext_keeps (s : State) : KeepsChans s s.journalNext := by
  unfold State.journalNext; split
  · split
    · exact journalWrite_keeps s
    · exact (modEvents_keeps s _ id).trans (requestRead_keeps _ _)
  · exact .refl _ s

theorem enqueue_keeps (s : State) (e : Event) : KeepsChans s (s.enqueue e) := by
  unfold State.enqueue; split
  · exact modEvents_keeps s _ fun _ => by simp; omega
  · exact (modEvents_keeps s _ id).trans (request_keeps _ _)

theorem journalNudged_keeps (s : State) : KeepsChans s s.journalNudged := by
  unfold State.journalNudged; split
  · exact requestRead_keeps _ _
  · exact .refl _ s

/-- An event handed over touches the Event Unit and the requests that wait, and nothing else. -/
theorem hand_keeps (s : State) (c : Option Chan) (b : EventBody) : KeepsChans s (s.hand c b) := by
  unfold State.hand; split
  · exact ((enqueue_keeps _ _).trans (journalNudged_keeps _)).trans (journalNext_keeps _)
  · exact .refl _ s

theorem offerJournalRelease_keeps (s : State) (v : Word) : KeepsChans s (s.offerJournalRelease v) := by
  unfold State.offerJournalRelease; split
  · dsimp only; split
    · exact modEvents_keeps s _ id
    · exact (modEvents_keeps s _ id).trans (request_keeps _ _)
  · split
    · exact .refl _ s
    · exact (modEvents_keeps s _ id).trans (request_keeps _ _)

theorem journalRecheck_keeps (s : State) : KeepsChans s s.journalRecheck := by
  unfold State.journalRecheck; split
  · split
    · exact journalWrite_keeps s
    · exact modEvents_keeps s _ id
  · exact .refl _ s

theorem journalReReadDone_keeps (s : State) (v : Option Word) : KeepsChans s (s.journalReReadDone v) := by
  unfold State.journalReReadDone
  cases v with
  | none => exact journalRecheck_keeps s
  | some v => exact (offerJournalRelease_keeps s v).trans (journalRecheck_keeps _)

theorem journalAdvance_keeps (s : State) (r : JournalRecord) : KeepsChans s (s.journalAdvance r) :=
  ((modEvents_keeps s _ fun h => by
    dsimp only; split
    · simp; omega
    · exact h).trans (request_keeps _ _)).trans
    (journalNext_keeps _)

theorem journalRecordDone_keeps (s : State) : KeepsChans s s.journalRecordDone := by
  unfold State.journalRecordDone; split
  · split
    · exact (modEvents_keeps s _ id).trans (request_keeps _ _)
    · exact journalAdvance_keeps s _
  · exact .refl _ s

/-! ## The Writeback Units -/

theorem placeGroup_keeps (s : State) (ch : Chan) (g : Group) : KeepsBut ch s (s.placeGroup ch g) :=
  (modWb_keeps s ch _).trans (request_keeps _ _).but

theorem writebackNext_keeps (s : State) (ch : Chan) : KeepsBut ch s (s.writebackNext ch) := by
  unfold State.writebackNext; split
  · split
    · exact placeGroup_keeps s ch _
    · exact (modWb_keeps s ch _).trans (requestRead_keeps _ _).but
  · exact .refl _ s

theorem takeIntoSpell_keeps (s : State) (ch : Chan) (r : DropReason) (t : Tally) :
    KeepsBut ch s (s.takeIntoSpell ch r t) := by
  unfold State.takeIntoSpell; split
  · exact (modWb_keeps s ch _).trans (hand_keeps _ _ _).but
  · exact modWb_keeps s ch _

theorem takeTally_keeps (s : State) (ch : Chan) (t : Option Tally) : KeepsBut ch s (s.takeTally ch t) := by
  unfold State.takeTally; split
  · exact .refl _ s
  · exact takeIntoSpell_keeps s ch _ _

/-- A queue that loses its head keeps the buffers apart. -/
theorem buffers_tail (c : Capture) (h : c.buffers.Nodup) : ({ c with queue := c.queue.tail } : Capture).buffers.Nodup := by
  unfold Capture.buffers at *
  refine h.sublist (List.Sublist.append (List.Sublist.refl _) ?_)
  exact (List.tail_sublist _).map _

theorem releaseHead_keeps (s : State) (ch : Chan) : KeepsBut ch s (s.releaseHead ch) :=
  modCapture_keeps s ch _ (buffers_tail _)

theorem endPlacement_keeps (s : State) (ch : Chan) : KeepsBut ch s (s.endPlacement ch) := modWb_keeps s ch _

theorem noroomDrop_keeps (s : State) (ch : Chan) : KeepsBut ch s (s.noroomDrop ch) := by
  unfold State.noroomDrop; split
  · exact endPlacement_keeps s ch
  · exact ((((releaseHead_keeps s ch).trans (endPlacement_keeps _ ch)).trans (count_keeps _ ch _)).trans
      (takeIntoSpell_keeps _ ch _ _)).trans (takeTally_keeps _ ch _)

theorem noRoom_keeps (s : State) (ch : Chan) (g : Group) : KeepsBut ch s (s.noRoom ch g) := by
  unfold State.noRoom; split
  · exact (endPlacement_keeps s ch).trans (modWb_keeps _ ch _)
  · exact (noroomDrop_keeps s ch).trans (writebackNext_keeps _ ch)

theorem offerRelease_keeps (s : State) (ch : Chan) (v : Word) : KeepsBut ch s (s.offerRelease ch v) := by
  unfold State.offerRelease; dsimp only; split
  · exact .refl _ s
  · split
    · split
      · exact modWb_keeps s ch _
      · exact (modWb_keeps s ch _).trans (request_keeps _ _).but
    · split
      · exact .refl _ s
      · exact ((modWb_keeps s ch _).trans (count_keeps _ ch _)).trans (hand_keeps _ _ _).but

theorem recheckGroup_keeps (s : State) (ch : Chan) : KeepsBut ch s (s.recheckGroup ch) := by
  unfold State.recheckGroup; split
  · split
    · exact placeGroup_keeps s ch _
    · exact noRoom_keeps s ch _
  · exact .refl _ s

theorem reReadDone_keeps (s : State) (ch : Chan) (v : Option Word) : KeepsBut ch s (s.reReadDone ch v) := by
  unfold State.reReadDone
  cases v with
  | none => exact recheckGroup_keeps s ch
  | some v => exact (offerRelease_keeps s ch v).trans (recheckGroup_keeps _ ch)

theorem releaseRecord_keeps (s : State) (ch : Chan) (g : Group) : KeepsBut ch s (s.releaseRecord ch g) := by
  unfold State.releaseRecord; split
  · exact .refl _ s
  · exact releaseHead_keeps s ch

theorem groupDone_keeps (s : State) (ch : Chan) (g : Group) : KeepsBut ch s (s.groupDone ch g) :=
  (((((modWb_keeps s ch _).trans (releaseRecord_keeps _ ch g)).trans (count_keeps _ ch _)).trans
    (request_keeps _ _).but).trans (takeTally_keeps _ ch _)).trans (writebackNext_keeps _ ch)

theorem burstDone_keeps (s : State) (ch : Chan) : KeepsBut ch s (s.burstDone ch) := by
  unfold State.burstDone; split
  · exact (modWb_keeps s ch _).trans (request_keeps _ _).but
  · exact groupDone_keeps s ch _
  · exact .refl _ s

/-! ## The Capture Assemblers -/

theorem buffers_close (c : Capture) (f : Fill) (r : ClosedRecord) (hr : r.buffer = f.buffer)
    (hf : c.fill.map (·.buffer) = some f.buffer) (h : c.buffers.Nodup) :
    ({ c with fill := none, queue := c.queue ++ [r] } : Capture).buffers.Nodup := by
  unfold Capture.buffers at *
  cases hc : c.fill with
  | none => simp [hc] at hf
  | some g =>
    simp only [hc, Option.map_some, Option.some.injEq] at hf
    simp only [hc, Option.toList_some, List.map_cons, List.map_nil, List.cons_append, List.nil_append, hf,
      List.nodup_cons] at h
    simp only [Option.toList_none, List.map_nil, List.nil_append, List.map_append, List.map_cons, hr]
    rw [List.nodup_append]
    exact ⟨h.2, by simp, fun a ha b hb hab => h.1 (by simp at hb; subst hb; subst hab; exact ha)⟩

theorem closeRecord_keeps (s : State) (ch : Chan) (b : Bool) (f : Fill)
    (hf : (s.chan ch).capture.fill.map (·.buffer) = some f.buffer) : KeepsBut ch s (s.closeRecord ch b f) :=
  ((modCapture_keeps s ch _ (buffers_close _ f _ rfl hf)).trans (count_keeps _ ch _)).trans (writebackNext_keeps _ ch)

theorem take_buffer (f : Fill) (i : Nat) (b : Bool) : (f.take i b).buffer = f.buffer := by
  unfold Fill.take; split
  · rfl
  · split
    · split <;> rfl
    · rfl

theorem buffers_fill (c : Capture) (f g : Fill) (hg : g.buffer = f.buffer) (hf : c.fill = some f) (h : c.buffers.Nodup) :
    ({ c with fill := some g } : Capture).buffers.Nodup := by
  unfold Capture.buffers at *
  simpa [hf, hg] using h

theorem captureBit_keeps (s : State) (ch : Chan) (i : Nat) (b : Bool) : KeepsBut ch s (s.captureBit ch i b) := by
  unfold State.captureBit; split
  · exact .refl _ s
  · rename_i f hf
    dsimp only; split
    · exact closeRecord_keeps s ch false _ (by simp [hf, take_buffer])
    · exact modCapture_keeps s ch _ (buffers_fill _ f _ (take_buffer f i b) hf)

theorem captureBits_keeps (s : State) (ch : Chan) (i : Nat) (bits : List Bool) :
    KeepsBut ch s (s.captureBits ch i bits) := by
  induction bits generalizing s i with
  | nil => exact .refl _ s
  | cons b rest ih => exact (captureBit_keeps s ch i b).trans (ih _ _)

theorem buffers_drop (c : Capture) (h : c.buffers.Nodup) : ({ c with fill := none } : Capture).buffers.Nodup := by
  unfold Capture.buffers at *
  exact h.sublist (List.sublist_append_right _ _)

theorem truncate_keeps (s : State) (ch : Chan) : KeepsBut ch s (s.truncate ch) := by
  unfold State.truncate; split
  · exact .refl _ s
  · rename_i f hf
    dsimp only; split
    · exact (count_keeps s ch _).trans (modCapture_keeps _ ch _ (buffers_drop _))
    · exact (count_keeps s ch _).trans (closeRecord_keeps _ ch true f (by simp [hf]))

theorem holdTally_buffers (n : Word) (ts : Dword) (q : List ClosedRecord) :
    (holdTally n ts q).map (·.buffer) = q.map (·.buffer) := by
  induction q with
  | nil => rfl
  | cons r rest ih =>
    cases rest with
    | nil => rfl
    | cons r' rest' =>
      simp only [holdTally, List.map_cons] at ih ⊢
      rw [ih]

theorem stallDrop_keeps (s : State) (ch : Chan) (f : Frame) : KeepsBut ch s (s.stallDrop ch f) :=
  (modCapture_keeps s ch _ fun h => by
    unfold Capture.buffers at *; rwa [holdTally_buffers]).trans (count_keeps _ ch _)

theorem freeBuffer_free (c : Capture) (id : BufferId) (h : c.freeBuffer = some id) : id ∉ c.queue.map (·.buffer) := by
  have key : ∀ i, c.bufferState i = .free → i ∉ c.queue.map (·.buffer) := by
    intro i hi hm
    unfold Capture.bufferState at hi
    split at hi
    · cases hi
    · split at hi
      · cases hi
      · rename_i hn
        obtain ⟨r, hr, he⟩ := List.mem_map.1 hm
        exact hn (List.any_eq_true.2 ⟨r, hr, by simp [he]⟩)
  unfold Capture.freeBuffer at h
  split at h
  · rename_i ha; simp at h; subst h; exact key _ ha
  · split at h
    · rename_i hb; simp at h; subst h; exact key _ hb
    · cases h

theorem buffers_begin (c : Capture) (f : Fill) (hf : f.buffer ∉ c.queue.map (·.buffer)) (h : c.buffers.Nodup) :
    ({ c with fill := some f } : Capture).buffers.Nodup := by
  unfold Capture.buffers at *
  have h2 : (c.queue.map (·.buffer)).Nodup := h.sublist (List.sublist_append_right _ _)
  simpa using ⟨by simpa using hf, h2⟩

theorem judge_keeps (s : State) (ch : Chan) (f : Frame) (bits : List Bool) : KeepsBut ch s (s.judge ch f bits) := by
  unfold State.judge; split
  · exact .refl _ s
  · split
    · split
      · rename_i id hid
        exact (modCapture_keeps s ch _ (buffers_begin _ _ (freeBuffer_free _ id hid))).trans (captureBits_keeps _ ch _ _)
      · exact stallDrop_keeps s ch f
    · exact .refl _ s

theorem advancePhase_keeps (s : State) (ch : Chan) : KeepsBut ch s (s.advancePhase ch) := modCapture_keeps s ch _ id
theorem restartPhase_keeps (s : State) (ch : Chan) : KeepsBut ch s (s.restartPhase ch) := modCapture_keeps s ch _ id

/-! ## The Frame Synchronizers and the Activity Monitors -/

theorem statusChanged_keeps (s : State) (ch : Chan) : KeepsBut ch s (s.statusChanged ch) := (request_keeps _ _).but

theorem lockLost_keeps (s : State) (ch : Chan) (r : LossReason) : KeepsBut ch s (s.lockLost ch r) :=
  ((count_keeps s ch _).trans (hand_keeps _ _ _).but).trans (truncate_keeps _ ch)

theorem clockLost_keeps (s : State) (ch : Chan) : KeepsBut ch s (s.clockLost ch) := by
  unfold State.clockLost; split
  · exact .refl _ s
  · exact modSync_keeps s ch _
  · exact (modSync_keeps s ch _).trans (statusChanged_keeps _ ch)
  · exact ((modSync_keeps s ch _).trans (lockLost_keeps _ ch _)).trans (statusChanged_keeps _ ch)
  · exact ((modSync_keeps s ch _).trans (lockLost_keeps _ ch _)).trans (statusChanged_keeps _ ch)

theorem retune_keeps (s : State) (ch : Chan) (b : Bool) : KeepsBut ch s (s.retune ch b) := by
  unfold State.retune; dsimp only
  split <;> split
  · exact (modSync_keeps s ch _).trans (lockLost_keeps _ ch _)
  · exact modSync_keeps s ch _
  · exact ((modSync_keeps s ch _).trans (lockLost_keeps _ ch _)).trans (statusChanged_keeps _ ch)
  · exact (modSync_keeps s ch _).trans (statusChanged_keeps _ ch)

theorem stopSync_keeps (s : State) (ch : Chan) : KeepsBut ch s (s.stopSync ch) :=
  (modSync_keeps s ch _).trans (truncate_keeps _ ch)

theorem startSync_keeps (s : State) (ch : Chan) : KeepsBut ch s (s.startSync ch) := modSync_keeps s ch _

theorem activityEntered_keeps (s : State) (ch : Chan) (a : ActivityState) : KeepsBut ch s (s.activityEntered ch a) :=
  (count_keeps s ch _).trans (hand_keeps _ _ _).but

theorem monitorClock_keeps (s : State) (ch : Chan) (b : Bool) : KeepsBut ch s (s.monitorClock ch b) := by
  unfold State.monitorClock; dsimp only; split
  · exact modMonitor_keeps s ch _
  · exact ((modMonitor_keeps s ch _).trans (activityEntered_keeps _ ch _)).trans (statusChanged_keeps _ ch)

theorem enterNoclock_keeps (s : State) (ch : Chan) : KeepsBut ch s (s.enterNoclock ch) :=
  ((((modMonitor_keeps s ch _).trans (activityEntered_keeps _ ch _)).trans (clockLost_keeps _ ch)).trans
    (truncate_keeps _ ch)).trans (statusChanged_keeps _ ch)

theorem restartMonitor_keeps (s : State) (ch : Chan) : KeepsBut ch s (s.restartMonitor ch) := by
  unfold State.restartMonitor; dsimp only; split
  · exact modMonitor_keeps s ch _
  · exact ((modMonitor_keeps s ch _).trans (activityEntered_keeps _ ch _)).trans (statusChanged_keeps _ ch)

theorem monitorApply_keeps (s : State) (ch : Chan) (i : Input) : KeepsBut ch s (s.monitorApply ch i) := by
  unfold State.monitorApply; split
  · exact restartMonitor_keeps s ch
  · split
    · exact enterNoclock_keeps s ch
    · exact .refl _ s

/-! ## The Program Units -/

theorem channelState_keeps (s : State) (ch : Chan) (c : Cause) : KeepsBut ch s (s.channelState ch c) :=
  (hand_keeps s _ _).but.trans (statusChanged_keeps _ ch)

theorem setRunState_keeps (s : State) (ch : Chan) (r : RunState) : KeepsBut ch s (s.setRunState ch r) :=
  modProg_keeps s ch _

theorem haltChannel_keeps (s : State) (ch : Chan) (c : Cause) : KeepsBut ch s (s.haltChannel ch c) :=
  (((setRunState_keeps s ch _).trans (stopSync_keeps _ ch)).trans (channelState_keeps _ ch c)).trans
    (writebackNext_keeps _ ch)

theorem startFraming_keeps (s : State) (ch : Chan) (c : Cause) : KeepsBut ch s (s.startFraming ch c) :=
  ((setRunState_keeps s ch _).trans (startSync_keeps _ ch)).trans (channelState_keeps _ ch c)

theorem failChannel_keeps (s : State) (ch : Chan) : KeepsBut ch s (s.failChannel ch) :=
  (modChan_keeps s ch (fun c =>
    { c.discard with sync := c.sync.toOff, prog := { c.prog with runState := .failed, held := none } })
    fun _ => List.nodup_nil).trans (channelState_keeps _ ch _)

theorem burstFailed_keeps (s : State) (ch : Chan) (a : Nat) : KeepsBut ch s (s.burstFailed ch a) :=
  (hand_keeps s _ _).but.trans (failChannel_keeps _ ch)

theorem sampleSlot_keeps (s : State) (ch : Chan) : KeepsChans s (s.sampleSlot ch) := requestRead_keeps s _

theorem reject_keeps (s : State) (ch : Chan) (g : Word) (r : RejectReason) : KeepsBut ch s (s.reject ch g r) :=
  ((modProg_keeps s ch _).trans (request_keeps _ _).but).trans (hand_keeps _ _ _).but

theorem adopt_keeps (s : State) (ch : Chan) (q : Program) (c : ChangeClass) : KeepsBut ch s (s.adopt ch q c) :=
  ((modProg_keeps s ch _).trans (request_keeps _ _).but).trans (hand_keeps _ _ _).but

theorem applyHalt_keeps (s : State) (ch : Chan) (g : Word) (c : Bool) : KeepsBut ch s (s.applyHalt ch g c) := by
  unfold State.applyHalt; dsimp only; split
  · exact adopt_keeps s ch _ _
  · exact (adopt_keeps s ch _ _).trans (haltChannel_keeps _ ch _)

theorem beginRun_keeps (s : State) (ch : Chan) : KeepsBut ch s (s.beginRun ch) :=
  modChan_keeps s ch _ fun _ => List.nodup_nil

theorem runStart_keeps (s : State) (ch : Chan) (r : RunProgram) : KeepsBut ch s (s.runStart ch r) :=
  ((((((beginRun_keeps s ch).trans (adopt_keeps _ ch _ _)).trans (monitorApply_keeps _ ch _)).trans
    (modSync_keeps _ ch _)).trans (setRunState_keeps _ ch _)).trans (channelState_keeps _ ch _)).trans
    (request_keeps _ _).but

theorem lighten_keeps (s : State) (ch : Chan) (r : RunProgram) (d : Nat) : KeepsBut ch s (s.lighten ch r d) := by
  unfold State.lighten; dsimp only; split
  · exact modSync_keeps s ch _
  · exact (modSync_keeps s ch _).trans (restartPhase_keeps _ ch)

theorem armedInvert_keeps (s : State) (ch : Chan) (b : Bool) : KeepsBut ch s (s.armedInvert ch b) := by
  unfold State.armedInvert; split
  · exact .refl _ s
  · exact (modSync_keeps s ch _).trans (statusChanged_keeps _ ch)

theorem changeFraming_keeps (s : State) (ch : Chan) (r : RunProgram) (c : ChangeClass) (d : Nat) :
    KeepsBut ch s (s.changeFraming ch r c d) := by
  unfold State.changeFraming; split
  · exact retune_keeps s ch _
  · exact armedInvert_keeps s ch _
  · exact lighten_keeps s ch _ _
  · exact (armedInvert_keeps s ch _).trans (lighten_keeps _ ch _ _)

theorem cut_keeps (s : State) (ch : Chan) (r : RunProgram) : KeepsBut ch s (s.cut ch r) := by
  unfold State.cut; split
  · exact truncate_keeps s ch
  · exact .refl _ s

theorem disarm_keeps (s : State) (ch : Chan) (r : RunProgram) : KeepsBut ch s (s.disarm ch r) := by
  unfold State.disarm; split
  · exact startFraming_keeps s ch _
  · exact .refl _ s

theorem applyChange_keeps (s : State) (ch : Chan) (r : RunProgram) : KeepsBut ch s (s.applyChange ch r) :=
  ((((adopt_keeps s ch _ _).trans (cut_keeps _ ch r)).trans (changeFraming_keeps _ ch r _ _)).trans
    (monitorApply_keeps _ ch _)).trans (disarm_keeps _ ch r)

/-- An application touches its channel, the Event Unit and the requests that wait, and nothing else. -/
theorem apply_keeps (s : State) (ch : Chan) (q : Program) : KeepsBut ch s (s.apply ch q) := by
  unfold State.apply; split
  · exact applyHalt_keeps s ch _ _
  · exact applyChange_keeps s ch _
  · exact applyChange_keeps s ch _
  · split
    · exact runStart_keeps s ch _
    · exact reject_keeps s ch _ _

theorem takeHeld_keeps (s : State) (ch : Chan) : KeepsBut ch s (s.takeHeld ch) := by
  unfold State.takeHeld; split
  · exact .refl _ s
  · exact (modProg_keeps s ch _).trans (apply_keeps _ ch _)

theorem takeHeldFraming_keeps (s : State) (ch : Chan) : KeepsBut ch s (s.takeHeldFraming ch) := by
  unfold State.takeHeldFraming; split
  · exact takeHeld_keeps s ch
  · exact .refl _ s

theorem gapExpired_keeps (s : State) (ch : Chan) : KeepsBut ch s (s.gapExpired ch) :=
  (enterNoclock_keeps s ch).trans (takeHeldFraming_keeps _ ch)

theorem supersede_keeps (s : State) (ch : Chan) (q : Program) : KeepsBut ch s (s.supersede ch q) := by
  unfold State.supersede; split
  · exact .refl _ s
  · exact (modProg_keeps s ch _).trans (hand_keeps _ _ _).but

theorem decideProgram_keeps (s : State) (ch : Chan) (q : Program) : KeepsBut ch s (s.decideProgram ch q) := by
  unfold State.decideProgram; dsimp only; split
  · exact (supersede_keeps s ch q).trans (apply_keeps _ ch q)
  · exact (supersede_keeps s ch q).trans (modProg_keeps _ ch _)

theorem examine_keeps (s : State) (ch : Chan) (g : Word) (a : Dword) : KeepsBut ch s (s.examine ch g a) := by
  unfold State.examine; dsimp only; split
  · split
    · exact (modProg_keeps s ch _).trans (request_keeps _ _).but
    · exact reject_keeps s ch _ _
  · exact .refl _ s

theorem endFetch_keeps (s : State) (ch : Chan) : KeepsBut ch s (s.endFetch ch) := modProg_keeps s ch _

theorem fixedDone_keeps (s : State) (ch : Chan) (b : List Byte) : KeepsBut ch s (s.fixedDone ch b) :=
  (modProg_keeps s ch _).trans (request_keeps _ _).but

theorem fetchFailed_keeps (s : State) (ch : Chan) : KeepsBut ch s (s.fetchFailed ch) := by
  unfold State.fetchFailed; split
  · exact .refl _ s
  · split
    · exact (endFetch_keeps s ch).trans (reject_keeps _ ch _ _)
    · exact endFetch_keeps s ch

theorem fetchTorn_keeps (s : State) (ch : Chan) (f : Fetch) : KeepsBut ch s (s.fetchTorn ch f) := by
  unfold State.fetchTorn; dsimp only; split
  · exact ((count_keeps s ch _).trans (modProg_keeps _ ch _)).trans (hand_keeps _ _ _).but
  · exact (count_keeps s ch _).trans (modProg_keeps _ ch _)

theorem fetchWhole_keeps (s : State) (ch : Chan) (a b : List Byte) : KeepsBut ch s (s.fetchWhole ch a b) := by
  unfold State.fetchWhole; dsimp only; split
  · exact (modProg_keeps s ch _).trans (decideProgram_keeps _ ch _)
  · exact (modProg_keeps s ch _).trans (reject_keeps _ ch _ _)

theorem tailDone_keeps (s : State) (ch : Chan) (b : List Byte) : KeepsBut ch s (s.tailDone ch b) := by
  unfold State.tailDone; split
  · exact .refl _ s
  · dsimp only; split
    · split
      · exact endFetch_keeps s ch
      · split
        · exact (endFetch_keeps s ch).trans (fetchTorn_keeps _ ch _)
        · exact (endFetch_keeps s ch).trans (fetchWhole_keeps _ ch _ _)
    · exact endFetch_keeps s ch

/-! ## Bits and decisions -/

theorem lockAcquired_keeps (s : State) (ch : Chan) : KeepsBut ch s (s.lockAcquired ch) :=
  (restartPhase_keeps s ch).trans (hand_keeps _ _ _).but

theorem frameBegun_keeps (s : State) (ch : Chan) (k : FrameStart) : KeepsBut ch s (s.frameBegun ch k) := by
  have h := (modSync_keeps s ch (·.begin k)).trans (count_keeps _ ch fun c => (c.accepted k).framed k)
  unfold State.frameBegun; dsimp only
  split <;> split
  · exact h.trans (lockAcquired_keeps _ ch)
  · exact h
  · exact (h.trans (lockAcquired_keeps _ ch)).trans (statusChanged_keeps _ ch)
  · exact h.trans (statusChanged_keeps _ ch)

theorem syncLost_keeps (s : State) (ch : Chan) : KeepsBut ch s (s.syncLost ch) := by
  unfold State.syncLost; dsimp only; split
  · exact ((modSync_keeps s ch _).trans (lockLost_keeps _ ch _)).trans (statusChanged_keeps _ ch)
  · exact (modSync_keeps s ch _).trans (statusChanged_keeps _ ch)

theorem boundary_keeps (s : State) (ch : Chan) : KeepsBut ch s (s.boundary ch) :=
  (takeHeldFraming_keeps s ch).trans (sampleSlot_keeps _ ch).but

theorem frameJudged_keeps (s : State) (ch : Chan) (f : Frame) (bits : List Bool) :
    KeepsBut ch s (s.frameJudged ch f bits) := by
  unfold State.frameJudged; split
  · exact (judge_keeps s ch f bits).trans (advancePhase_keeps _ ch)
  · exact advancePhase_keeps s ch

theorem conclude_keeps (s : State) (ch : Chan) (r : RunProgram) (v : Verdict) : KeepsBut ch s (s.conclude ch r v) := by
  unfold State.conclude; dsimp only; split
  · exact (modSync_keeps s ch _).trans (boundary_keeps _ ch)
  · exact (syncLost_keeps s ch).trans (boundary_keeps _ ch)
  · split
    · exact ((count_keeps s ch _).trans (syncLost_keeps _ ch)).trans (boundary_keeps _ ch)
    · exact ((frameBegun_keeps s ch _).trans (boundary_keeps _ ch)).trans (frameJudged_keeps _ ch _ _)

theorem polarityFlip_keeps (s : State) (ch : Chan) (d : Option Nat) : KeepsBut ch s (s.polarityFlip ch d) :=
  ((modSync_keeps s ch _).trans (count_keeps _ ch _)).trans (hand_keeps _ _ _).but

theorem enterCheck_keeps (s : State) (ch : Chan) : KeepsBut ch s (s.enterCheck ch) :=
  (modSync_keeps s ch _).trans (statusChanged_keeps _ ch)

theorem searchBit_keeps (s : State) (ch : Chan) (r : RunProgram) (d : Option Nat) : KeepsBut ch s (s.searchBit ch r d) := by
  unfold State.searchBit; split
  · exact .refl _ s
  · split
    · exact enterCheck_keeps s ch
    · split
      · exact (polarityFlip_keeps s ch _).trans (enterCheck_keeps _ ch)
      · exact .refl _ s

theorem decisionBit_keeps (s : State) (ch : Chan) (r : RunProgram) (d e : Option Nat) :
    KeepsBut ch s (s.decisionBit ch r d e) := by
  unfold State.decisionBit; dsimp only; split
  · split
    · exact conclude_keeps s ch _ _
    · exact .refl _ s
  · split
    · split
      · exact conclude_keeps s ch _ _
      · split
        · exact conclude_keeps s ch _ _
        · exact modSync_keeps s ch _
    · exact .refl _ s

theorem handBit_keeps (s : State) (ch : Chan) (r : RunProgram) : KeepsBut ch s (s.handBit ch r) := by
  unfold State.handBit; dsimp only; split
  · exact captureBit_keeps s ch _ _
  · exact .refl _ s

theorem takeBit_keeps (s : State) (ch : Chan) (b : Bool) : KeepsBut ch s (s.takeBit ch b) := by
  unfold State.takeBit; dsimp only; split
  · exact .refl _ s
  · exact .refl _ s
  · exact (modSync_keeps s ch _).trans (searchBit_keeps _ ch _ _)
  · exact ((modSync_keeps s ch _).trans (handBit_keeps _ ch _)).trans (decisionBit_keeps _ ch _ _ _)

/-- A bit clock touches its channel, the Event Unit and the requests that wait, and nothing else. -/
theorem bitClock_keeps (s : State) (ch : Chan) (b : Bool) : KeepsBut ch s (s.bitClock ch b) := by
  unfold State.bitClock; dsimp only; split
  · split
    · exact monitorClock_keeps s ch b
    · exact (monitorClock_keeps s ch b).trans (takeBit_keeps _ ch b)
  · exact .refl _ s

/-! ## Snapshots and loops over the channels -/

theorem offerStats_keeps (s : State) (ch : Chan) (r : Half) (c : Bool) : KeepsBut ch s (s.offerStats ch r c) := by
  unfold State.offerStats; split
  · exact (modStats_keeps s ch _).trans (request_keeps _ _).but
  · exact .refl _ s

theorem blockDone_keeps (s : State) (ch : Chan) : KeepsBut ch s (s.blockDone ch) :=
  (modStats_keeps s ch _).trans (request_keeps _ _).but

theorem blockFailed_keeps (s : State) (ch : Chan) : KeepsBut ch s (s.blockFailed ch) :=
  (modStats_keeps s ch _).trans (hand_keeps _ _ _).but

theorem slotReadDone_keeps (s : State) (ch : Chan) (w : SlotWords) : KeepsBut ch s (s.slotReadDone ch w) := by
  have h := ((modProg_keeps s ch fun q => { q with
      latestAreaBase := w.areaBase, latestAreaSize := w.areaSize, latestRelease := w.release }).trans
    (offerRelease_keeps _ ch w.release)).trans (offerStats_keeps _ ch w.statsRequest w.statsClear)
  unfold State.slotReadDone; dsimp only; split
  · exact h.trans (examine_keeps _ ch _ _)
  · exact h

/-- An operation on each channel in turn. -/
theorem forChans_keeps (s : State) (f : Chan → State → State) (h : ∀ c u, Keeps (fun _ => False) u (f c u)) :
    Keeps (fun _ => False) s (s.forChans f) := by
  unfold State.forChans
  generalize allChans = l
  induction l generalizing s with
  | nil => exact .refl _ s
  | cons c rest ih => exact (h c s).trans (ih _)

/-- An operation on each channel in turn that touches no channel's data. -/
theorem forChans_keepsChans (s : State) (f : Chan → State → State) (h : ∀ c u, KeepsChans u (f c u)) :
    KeepsChans s (s.forChans f) := by
  unfold State.forChans
  generalize allChans = l
  induction l generalizing s with
  | nil => exact .refl _ s
  | cons c rest ih => exact (h c s).trans (ih _)

theorem deliverTestBit_keeps (s : State) (b : Bool) : Keeps (fun _ => False) s (s.deliverTestBit b) :=
  forChans_keeps s _ fun c u => by
    split
    · exact (bitClock_keeps u c b).none
    · exact .refl _ u

theorem settleChannel_keeps (s : State) (ch : Chan) : KeepsBut ch s (s.settleChannel ch) := by
  unfold State.settleChannel; dsimp only; split
  · exact takeHeld_keeps s ch
  · exact .refl _ s

end Sys2Proof.Machine
end

