-- ==== Sys2Proof/Laws/Inv.lean ====
section
/-! SUPPORT. Every operation of a step keeps what holds of every state a run reaches. -/

namespace Sys2Proof.Machine

variable {p : Chan → Prop} {s t u : State} {ch : Chan}

/-- What holds at every moment of a step speaks of these fields only. -/
theorem State.Tidy.copy (k : s.Tidy) (mem : t.mem = s.mem) (events : t.events = s.events) (port : t.port = s.port)
    (device : t.device = s.device) (faultCode : t.faultCode = s.faultCode) (frozen : t.frozen = s.frozen)
    (lo : t.regs.cpbaseLo = s.regs.cpbaseLo) (hi : t.regs.cpbaseHi = s.regs.cpbaseHi) (chans : t.chans = s.chans) :
    t.Tidy where
  memory := by rw [mem]; exact k.memory
  queue := by rw [events]; exact k.queue
  guard := by rw [port]; exact k.guard
  sorted := by rw [port]; exact k.sorted
  reads := by rw [port]; exact k.reads
  made := by rw [port]; exact k.made
  unfaulted := by unfold State.Unfaulted; rw [device, faultCode, frozen]; exact k.unfaulted
  base := by unfold Registers.BaseAligned; rw [lo, hi]; exact k.base
  buffers := by unfold State.chan; rw [chans]; exact k.buffers

/-- What holds of a step before its requests arrive speaks of these fields only. -/
theorem State.Sound.copy (k : s.Sound) (mem : t.mem = s.mem) (events : t.events = s.events) (port : t.port = s.port)
    (device : t.device = s.device) (faultCode : t.faultCode = s.faultCode) (frozen : t.frozen = s.frozen)
    (lo : t.regs.cpbaseLo = s.regs.cpbaseLo) (hi : t.regs.cpbaseHi = s.regs.cpbaseHi) (chans : t.chans = s.chans)
    (run : t.regs.run = s.regs.run) : t.Sound :=
  { k.toTidy.copy mem events port device faultCode frozen lo hi chans with
    followed := by unfold State.Followed; rw [device, run]; exact k.followed }

/-- An operation with a frame keeps what holds at every moment of a step. -/
theorem Keeps.tidy (h : Keeps p s t) (k : s.Tidy) : t.Tidy where
  memory := by rw [h.mem]; exact k.memory
  queue := h.queue k.queue
  guard := by rw [h.guard]; exact k.guard
  sorted := h.sorted k.sorted
  reads := by unfold Port.ReadsCarryNothing; rw [h.inFlight]; exact k.reads
  made := h.made k.made
  unfaulted := by unfold State.Unfaulted; rw [h.device, h.faultCode, h.frozen]; exact k.unfaulted
  base := by rw [h.regs]; exact k.base
  buffers := h.buffers k.buffers

/-- An operation with a frame keeps what holds of a step before its requests arrive. -/
theorem Keeps.sound (h : Keeps p s t) (k : s.Sound) : t.Sound :=
  { h.tidy k.toTidy with followed := by unfold State.Followed; rw [h.device, h.regs]; exact k.followed }

/-- What every arrival keeps of the port. -/
theorem State.Tidy.port (k : s.Tidy) : s.port.Kept := ⟨k.guard, k.sorted, k.reads⟩

/-- Outside FAULTED a block has outstanding what the port holds of it (log 34). -/
theorem State.Tidy.outstanding (k : s.Tidy) (h : s.device ≠ .faulted) (r : Request) :
    s.waits r = s.port.waiting r ∧ s.flies r = s.port.flying r ∧ s.outstanding r = s.port.outstanding r := by
  have hf := (k.unfaulted.resolve_left h).2
  have hw : s.waits r = s.port.waiting r := by
    unfold State.waits; rw [hf]; exact Bool.or_false _
  have hg : s.flies r = s.port.flying r := by
    unfold State.flies; rw [hf]; exact Bool.or_false _
  refine ⟨hw, hg, ?_⟩
  unfold State.outstanding; rw [hw, hg]; rfl

/-- What holds of a step, with another port of which it holds too. -/
theorem State.Sound.withPort (k : s.Sound) {q : Port} (h : q.Kept) (hm : ∀ t ∈ q.arrivals, t.Made) :
    ({ s with port := q } : State).Sound :=
  { k with guard := h.guard, sorted := h.sorted, reads := h.reads, made := hm }

/-- The arrival of its requests completes what a step leaves. -/
theorem State.Sound.arbitrated (k : s.Sound) : s.arbitrate.Inv := by
  obtain ⟨q, hq⟩ := arbitrate_eq s
  have hp : s.arbitrate.port = q := by rw [hq]
  have ha := arbitrate_arrivals s
  have h := k.withPort (hp ▸ arbitrate_kept s k.made k.port) fun t ht => by rw [← hp, ha] at ht; cases ht
  rw [← hq] at h
  exact { h with granted := arbitrate_granted s, arrived := ha }

/-- The grant at a completion completes what a step leaves. -/
theorem State.Sound.regranted (k : s.Sound) : s.regrant.Inv := by
  obtain ⟨q, hq⟩ := regrant_eq s
  have hp : s.regrant.port = q := by rw [hq]
  have ha := regrant_arrivals s
  have h := k.withPort (hp ▸ regrant_kept s k.port) fun t ht => by rw [← hp, ha] at ht; cases ht
  rw [← hq] at h
  exact { h with granted := regrant_granted s, arrived := ha }

/-- The commands that wait are no part of the invariant. -/
theorem State.Inv.withPending (k : s.Inv) (l : List Instr) : ({ s with pending := l } : State).Inv :=
  { k with granted := k.granted }

/-! ## Memory -/

theorem placeBytes_sound (k : s.Sound) (t : Transaction) : (s.placeBytes t).Sound :=
  { k with memory := Memory.wf_writeAll _ _ _ k.memory }

theorem spoilBytes_sound (k : s.Sound) (t : Transaction) : (s.spoilBytes t).Sound :=
  { k with memory := Memory.wf_writeAll _ _ _ k.memory }

theorem spoilInFlight_sound (k : s.Sound) : s.spoilInFlight.Sound := by
  unfold State.spoilInFlight; split
  · exact k
  · exact spoilBytes_sound k _

theorem bytesWritten_sound (k : s.Sound) (t : Transaction) (r : ReadResponse) : (s.bytesWritten t r).Sound := by
  cases r
  · exact placeBytes_sound k t
  · exact spoilBytes_sound k t

theorem freePort_sound (k : s.Sound) : s.freePort.Sound :=
  { k with reads := (fun _ h => by cases h) }

/-! ## Interrupts and timers -/

theorem raise_sound (k : s.Sound) (i : IrqSource) : (s.raise i).Sound :=
  k.copy rfl rfl rfl rfl rfl rfl rfl rfl rfl rfl

theorem captureNotice_sound (k : s.Sound) (ch : Chan) : (s.captureNotice ch).Sound :=
  raise_sound ((modWb_keeps s ch _).sound k) _

theorem journalNotice_sound (k : s.Sound) : s.journalNotice.Sound :=
  raise_sound ((modEvents_keeps s _ id).sound k) _

theorem markDone_sound (k : s.Sound) (ch : Chan) (v : Word) : (s.markDone ch v).Sound := by
  unfold State.markDone; dsimp only; split
  · exact (modWb_keeps s ch _).sound k
  · split
    · exact captureNotice_sound ((modWb_keeps s ch _).sound k) ch
    · exact ((modWb_keeps s ch _).trans (modWb_keeps _ ch _)).sound k

theorem journalMarkDone_sound (k : s.Sound) (v : Word) : (s.journalMarkDone v).Sound := by
  unfold State.journalMarkDone; dsimp only; split
  · exact (modEvents_keeps s _ id).sound k
  · split
    · exact journalNotice_sound ((modEvents_keeps s _ id).sound k)
    · exact ((modEvents_keeps s _ id).trans (modEvents_keeps _ _ id)).sound k

/-! ## The Test Source -/

theorem modTest_sound (k : s.Sound) (f : TestSource → TestSource) : (s.modTest f).Sound :=
  k.copy rfl rfl rfl rfl rfl rfl rfl rfl rfl rfl

theorem testStatusChanged_sound (k : s.Sound) : s.testStatusChanged.Sound := (request_keeps s _).sound k

theorem rejectTest_sound (k : s.Sound) (g : Word) (r : TestReject) : (s.rejectTest g r).Sound :=
  (hand_keeps _ _ _).sound (testStatusChanged_sound (modTest_sound k _))

theorem adoptTest_sound (k : s.Sound) (q : TestSettings) : (s.adoptTest q).Sound :=
  (hand_keeps _ _ _).sound (testStatusChanged_sound (modTest_sound k _))

theorem judgeBlock_sound (k : s.Sound) (q : TestSettings) : (s.judgeBlock q).Sound := by
  unfold State.judgeBlock; split
  · exact adoptTest_sound k q
  · exact rejectTest_sound k _ _

theorem sampleDone_sound (k : s.Sound) (a : Dword) (g : Word) : (s.sampleDone a g).Sound := by
  unfold State.sampleDone; split
  · split
    · exact (request_keeps _ _).sound (modTest_sound k _)
    · exact rejectTest_sound k _ _
  · exact k

theorem blockFetched_sound (k : s.Sound) (b : Option (List Byte)) : (s.blockFetched b).Sound := by
  unfold State.blockFetched; split
  · exact k
  · dsimp only; split
    · split
      · exact rejectTest_sound (modTest_sound k _) _ _
      · split
        · exact (hand_keeps _ _ _).sound (modTest_sound k _)
        · exact judgeBlock_sound (modTest_sound k _) _
    · exact modTest_sound k _

theorem testBitClock_sound (k : s.Sound) : s.testBitClock.Sound := by
  unfold State.testBitClock; split
  · exact k
  · dsimp only; split
    · exact modTest_sound ((deliverTestBit_keeps s _).sound k) _
    · exact testStatusChanged_sound (modTest_sound ((deliverTestBit_keeps s _).sound k) _)

/-! ## Device Control -/

theorem buffersApart_reset : Channel.reset.BuffersApart := List.nodup_nil

theorem enterStarting_sound (k : s.Tidy) : s.enterStarting.Sound :=
  (request_keeps _ _).sound
    { memory := k.memory
      queue := Nat.zero_le _
      guard := Nat.zero_le _
      sorted := Port.reset_sorted
      reads := fun t ht hr => by
        obtain ⟨x, hx, rfl⟩ := Option.map_eq_some_iff.1 ht
        exact k.reads x hx hr
      made := fun _ h => absurd h List.not_mem_nil
      unfaulted := Or.inr ⟨rfl, rfl⟩
      base := k.base
      followed := trivial
      buffers := fun ch => by
        show ((PerChannel.all Channel.reset).get ch).BuffersApart
        rw [PerChannel.get_all]; exact buffersApart_reset }

theorem drainChannel_keeps (s : State) (ch : Chan) : KeepsBut ch s (s.drainChannel ch) := by
  unfold State.drainChannel; dsimp only; split
  · exact (modProg_keeps s ch _).trans (haltChannel_keeps _ ch _)
  · exact modProg_keeps s ch _

theorem announce_keeps (s : State) : KeepsChans s s.announce := (hand_keeps s _ _).trans (request_keeps _ _)

theorem stopPoll_sound (k : s.Sound) : s.stopPoll.Sound :=
  k.copy rfl rfl rfl rfl rfl rfl rfl rfl rfl rfl

theorem startPoll_sound (k : s.Sound) : s.startPoll.Sound :=
  k.copy rfl rfl rfl rfl rfl rfl rfl rfl rfl rfl

/-- What a state keeps when the device takes another that allows what is left of a fault. -/
theorem State.Tidy.withDevice (k : s.Tidy) (d : DeviceState) (hc : d = .faulted ∨ s.Unfaulted) :
    ({ s with device := d } : State).Tidy :=
  { k with unfaulted := hc }

/-- The device takes a state: what it leaves. -/
theorem enterState_tidy (k : s.Tidy) (d : DeviceState) (hc : s.Unfaulted) : (s.enterState d).Tidy :=
  (announce_keeps _).tidy (k.withDevice d (Or.inr hc))

@[simp] theorem enterState_device (s : State) (d : DeviceState) : (s.enterState d).device = d :=
  (announce_keeps { s with device := d }).device
@[simp] theorem enterState_regs (s : State) (d : DeviceState) : (s.enterState d).regs = s.regs :=
  (announce_keeps { s with device := d }).regs
@[simp] theorem enterState_faultCode (s : State) (d : DeviceState) : (s.enterState d).faultCode = s.faultCode :=
  (announce_keeps { s with device := d }).faultCode

theorem drainAll_keeps (s : State) : Keeps (fun _ => False) s (s.forChans fun ch t => t.drainChannel ch) :=
  forChans_keeps s _ fun ch u => (drainChannel_keeps u ch).none

theorem modTest_tidy (k : s.Tidy) (f : TestSource → TestSource) : (s.modTest f).Tidy :=
  k.copy rfl rfl rfl rfl rfl rfl rfl rfl rfl

theorem stopPoll_tidy (k : s.Tidy) : s.stopPoll.Tidy :=
  k.copy rfl rfl rfl rfl rfl rfl rfl rfl rfl

theorem enterDraining_tidy (k : s.Tidy) (hc : s.Unfaulted) : s.enterDraining.Tidy := by
  unfold State.enterDraining State.drainTest
  have h := enterState_tidy (stopPoll_tidy k) .draining hc
  generalize s.stopPoll.enterState .draining = u at h
  exact modTest_tidy ((drainAll_keeps u).tidy h) _

@[simp] theorem enterDraining_device (s : State) : s.enterDraining.device = .draining := by
  unfold State.enterDraining State.drainTest
  rw [modTest_device, (drainAll_keeps _).device, enterState_device]

@[simp] theorem enterDraining_faultCode (s : State) : s.enterDraining.faultCode = s.faultCode := by
  unfold State.enterDraining State.drainTest
  rw [modTest_faultCode, (drainAll_keeps _).faultCode, enterState_faultCode]
  rfl

/-- A device in DRAINING has nothing to follow. -/
theorem enterDraining_sound (k : s.Tidy) (hc : s.Unfaulted) : s.enterDraining.Sound :=
  { enterDraining_tidy k hc with followed := by unfold State.Followed; rw [enterDraining_device]; trivial }

theorem enterStopped_sound (k : s.Tidy) (hc : s.Unfaulted) : s.enterStopped.Sound := by
  unfold State.enterStopped; dsimp only
  have h1 := enterState_tidy k .stopped hc
  have h2 : ((s.enterState .stopped).raise .drained).Tidy :=
    h1.copy rfl rfl rfl rfl rfl rfl rfl rfl rfl
  have hk := forChans_keeps ((s.enterState .stopped).raise .drained)
    (fun ch t => t.modMonitor ch fun m => { m with evaluating := false }) fun ch u => (modMonitor_keeps u ch _).none
  have h3 := hk.tidy h2
  split
  · exact enterStarting_sound h3
  · rename_i hr
    exact { h3 with
      followed := by
        unfold State.Followed
        rw [hk.device]
        show (match (s.enterState .stopped).device with
          | .dormant | .stopped => _ | .running => _ | .starting | .draining | .faulted => True)
        rw [enterState_device]
        simpa using hr }

theorem drainCheck_sound (k : s.Sound) : s.drainCheck.Sound := by
  unfold State.drainCheck; split
  · rename_i h
    refine enterStopped_sound k.toTidy (k.unfaulted.resolve_left ?_)
    rw [h.1]; exact DeviceState.noConfusion
  · exact k

theorem settle_sound (k : s.Sound) : s.settle.Sound :=
  drainCheck_sound ((forChans_keeps s _ fun ch u => (settleChannel_keeps u ch).none).sound k)

theorem enterFaulted_sound (k : s.Tidy) (code : FaultCode) : (s.enterFaulted code).Sound := by
  have h : s.spoilInFlight.Tidy := by
    unfold State.spoilInFlight; split
    · exact k
    · exact { k with memory := Memory.wf_writeAll _ _ _ k.memory }
  exact
    { memory := h.memory
      queue := h.queue
      guard := h.guard
      sorted := Port.reset_sorted
      reads := fun _ h => by cases h
      made := fun _ h => absurd h List.not_mem_nil
      unfaulted := Or.inl rfl
      base := h.base
      followed := trivial
      buffers := fun ch => by
        show ((s.spoilInFlight.chans.map Channel.freeze).get ch).BuffersApart
        rw [PerChannel.get_map]; exact List.nodup_nil }

/-- R186: once the device has followed CTRL.RUN, it has followed it. -/
theorem followRun_sound (k : s.Tidy) : s.followRun.Sound := by
  unfold State.followRun
  split
  · exact enterStarting_sound k
  · exact enterStarting_sound k
  · rename_i hd hr
    refine drainCheck_sound (enterDraining_sound k (k.unfaulted.resolve_left ?_))
    rw [hd]; exact DeviceState.noConfusion
  · rename_i h1 h2 h3
    exact { k with
      followed := by
        unfold State.Followed
        cases hd : s.device <;> cases hr : s.regs.run <;> simp_all }

theorem setCtrl_tidy (k : s.Tidy) (r i : Bool) : (s.setCtrl r i).Tidy :=
  k.copy rfl rfl rfl rfl rfl rfl rfl rfl rfl

theorem writeCtrl_sound (k : s.Tidy) (r i : Bool) : (s.writeCtrl r i).Sound := followRun_sound (setCtrl_tidy k r i)

theorem startSession_tidy (k : s.Tidy) (h : Header) : (s.startSession h).Tidy :=
  { k with queue := k.queue }

theorem beginAll_keeps (s : State) :
    Keeps (fun _ => False) s (s.forChans fun ch t => t.modMonitor ch fun _ => .begin) :=
  forChans_keeps s _ fun ch u => (modMonitor_keeps u ch _).none

theorem sampleAll_keeps (s : State) : KeepsChans s (s.forChans fun ch t => t.sampleSlot ch) :=
  forChans_keepsChans s _ fun ch u => sampleSlot_keeps u ch

theorem enterRunning_keeps (s : State) : Keeps (fun _ => False) (s.enterState .running) s.enterRunning := by
  unfold State.enterRunning State.sampleTest
  generalize s.enterState .running = u
  exact (((request_keeps u _).but.trans (beginAll_keeps _)).trans (sampleAll_keeps _).but).trans
    (requestRead_keeps _ _).but

theorem headerDone_sound (k : s.Sound) (b : List Byte) : (s.headerDone b).Sound := by
  unfold State.headerDone; dsimp only; split
  · rename_i hd
    have hc : s.Unfaulted := k.unfaulted.resolve_left (by rw [hd]; exact DeviceState.noConfusion)
    split
    · have h := (enterRunning_keeps (s.startSession (Header.parse b))).tidy
        (enterState_tidy (startSession_tidy k.toTidy (Header.parse b)) .running hc)
      generalize (s.startSession (Header.parse b)).enterRunning = u at h
      exact followRun_sound (s := u.startPoll) (h.copy rfl rfl rfl rfl rfl rfl rfl rfl rfl)
    · exact enterFaulted_sound k.toTidy _
  · exact k

theorem nudge_sound (k : s.Sound) (c : Byte) (j t i : Bool) : (s.nudge c j t i).Sound := by
  unfold State.nudge; dsimp only; split
  · have h1 : (s.forChans fun ch u => u.nudgeChannel c ch).Sound :=
      (forChans_keepsChans s _ fun ch u => by
        unfold State.nudgeChannel; split
        · exact sampleSlot_keeps u ch
        · exact .refl _ u).sound k
    generalize (s.forChans fun ch u => u.nudgeChannel c ch) = s1 at h1
    have h2 : (if j then s1.requestRead .journalReRead else s1).Sound := by
      split
      · exact (requestRead_keeps _ _).sound h1
      · exact h1
    generalize (if j then s1.requestRead .journalReRead else s1) = s2 at h2
    have h3 : (if t then s2.sampleTest else s2).Sound := by
      split
      · exact (requestRead_keeps _ _).sound h2
      · exact h2
    generalize (if t then s2.sampleTest else s2) = s3 at h3
    split
    · exact modTest_sound h3 _
    · exact h3
  · exact k

theorem fullReset_sound (k : s.Tidy) (held : Bool) : (s.fullReset held).Sound where
  memory := by
    show Memory.wf s.spoilInFlight.mem = true
    unfold State.spoilInFlight; split
    · exact k.memory
    · exact Memory.wf_writeAll _ _ _ k.memory
  queue := Nat.zero_le _
  guard := Nat.zero_le _
  sorted := Port.reset_sorted
  reads := fun _ h => by cases h
  made := fun _ h => absurd h List.not_mem_nil
  unfaulted := Or.inr ⟨rfl, rfl⟩
  base := (by unfold Registers.BaseAligned; decide : Registers.reset.BaseAligned)
  followed := rfl
  buffers := fun ch => by cases ch <;> exact List.nodup_nil

theorem softReset_sound (k : s.Tidy) : s.softReset.Sound :=
  { fullReset_sound k s.resetHeld with base := k.base }

theorem cpbase_lo_aligned (v : Word) : (v &&& 0xFFFFF000) &&& 0xFFF = 0 := by
  rw [BitVec.and_assoc]; simp

theorem cpbase_hi_aligned (v : Word) : (v &&& 0xFFFF) &&& 0xFFFF0000 = 0 := by
  rw [BitVec.and_assoc]; simp

theorem writeRegister_sound (k : s.Sound) (r : Register) (v : Word) : (s.writeRegister r v).Sound := by
  cases r
  · exact k
  · show (s.writeCtrlWord v).Sound
    unfold State.writeCtrlWord; split
    · exact softReset_sound k.toTidy
    · exact writeCtrl_sound k.toTidy _ _
  · exact k
  · show (s.writeCpbaseLo v).Sound
    unfold State.writeCpbaseLo; split
    · exact { k with base := ⟨cpbase_lo_aligned v, k.base.2⟩ }
    · exact k
  · show (s.writeCpbaseHi v).Sound
    unfold State.writeCpbaseHi; split
    · exact { k with base := ⟨k.base.1, cpbase_hi_aligned v⟩ }
    · exact k
  · exact nudge_sound k _ _ _ _
  all_goals
    exact k.copy rfl rfl rfl rfl rfl rfl rfl rfl rfl rfl

/-! ## STRT and the timers -/

theorem strtEdge_sound (k : s.Sound) : s.strtEdge.Sound := by
  unfold State.strtEdge; split
  · have h := (hand_keeps s none .startEdge).sound k
    have h2 : (s.hand none .startEdge).strtTimebase.Sound :=
      h.copy rfl rfl rfl rfl rfl rfl rfl rfl rfl rfl
    refine (forChans_keeps _ _ fun ch u => ?_).sound h2
    unfold State.strtChannel; split
    · exact (startFraming_keeps u ch _).none
    · exact .refl _ u
  · exact k

theorem idlePollExpired_sound (k : s.Sound) : s.idlePollExpired.Sound := by
  refine ((requestRead_keeps _ _).trans (requestRead_keeps _ _)).sound ?_
  refine (forChans_keepsChans _ _ fun ch u => ?_).sound (startPoll_sound k)
  unfold State.pollChannel; split
  · exact sampleSlot_keeps u ch
  · exact .refl _ u

/-! ## Completions and ticks -/

theorem failed_sound (k : s.Sound) (t : Transaction) : (s.failed t).Sound := by
  unfold State.failed; split
  · exact (burstFailed_keeps s _ _).sound k
  · exact (fetchFailed_keeps s _).sound k
  · exact (fetchFailed_keeps s _).sound k
  · exact blockFetched_sound k _
  · exact (blockFailed_keeps s _).sound k
  · exact (reReadDone_keeps s _ _).sound k
  · exact (journalReReadDone_keeps s _).sound k
  · exact enterFaulted_sound k.toTidy _

theorem succeeded_sound (k : s.Sound) (t : Transaction) (b : List Byte) : (s.succeeded t b).Sound := by
  unfold State.succeeded; split
  · exact headerDone_sound k b
  · exact k
  · exact (slotReadDone_keeps s _ _).sound k
  · exact (fixedDone_keeps s _ _).sound k
  · exact (tailDone_keeps s _ _).sound k
  · exact k
  · exact k
  · exact (reReadDone_keeps s _ _).sound k
  · exact (burstDone_keeps s _).sound k
  · exact markDone_sound k _ _
  · exact (journalRecordDone_keeps s).sound k
  · exact (journalReReadDone_keeps s _).sound k
  · exact journalMarkDone_sound k _
  · exact (blockDone_keeps s _).sound k
  · exact k
  · exact sampleDone_sound k _ _
  · exact blockFetched_sound k _
  · exact k

theorem deliver_sound (k : s.Sound) (t : Transaction) (r : ReadResponse) : (s.deliver t r).Sound := by
  unfold State.deliver; split
  · exact k
  · cases r with
    | okay b => exact succeeded_sound k t b
    | error => exact failed_sound k t

/-- A completion keeps the invariant. -/
theorem complete_inv (k : s.Sound) (t : Transaction) (r : ReadResponse) : (s.complete t r).Inv :=
  (settle_sound (deliver_sound (bytesWritten_sound (freePort_sound k) t r) t r)).regranted

theorem respond_inv (k : s.Inv) (q : Request) (r : ReadResponse) (h : s.respond q r = .next t) : t.Inv := by
  unfold State.respond at h
  split at h
  · cases h; exact k
  · split at h
    · split at h
      · rw [← Host.Outcome.next.inj h]; exact complete_inv k.toSound _ r
      · cases h
    · cases h; exact k

theorem timeOut_sound (k : s.Sound) : s.timeOut.Sound := by
  unfold State.timeOut; split
  · exact k
  · exact (complete_inv k _ _).toSound

theorem forChans_sound (k : s.Sound) (f : Chan → State → State) (h : ∀ c u, State.Sound u → (f c u).Sound) :
    (s.forChans f).Sound := by
  unfold State.forChans
  generalize allChans = l
  induction l generalizing s with
  | nil => exact k
  | cons c rest ih => exact ih (h c s k)

/-- A tick that is counted. -/
theorem countTick_sound (k : s.Sound) : s.countTick.Sound :=
  { k with
    buffers := fun ch => by
      show ((s.chans.map Channel.tick).get ch).BuffersApart
      rw [PerChannel.get_map]; exact k.buffers ch }

/-- What expires at a tick. -/
theorem expire_sound (k : s.Sound) : s.expire.Sound := by
  unfold State.expire; dsimp only
  have h1 := forChans_sound k (fun ch u => if (s.chan ch).gapReached then u.gapExpired ch else u) fun c u hu => by
    split
    · exact (gapExpired_keeps u c).sound hu
    · exact hu
  generalize (s.forChans fun ch u => if (s.chan ch).gapReached then u.gapExpired ch else u) = s1 at h1
  have h2 := forChans_sound h1
    (fun ch u => if s.holdoffReached (s.chan ch).wb.holdoff then u.captureNotice ch else u) fun c u hu => by
    split
    · exact captureNotice_sound hu c
    · exact hu
  generalize (s1.forChans fun ch u => if s.holdoffReached (s.chan ch).wb.holdoff then u.captureNotice ch else u) = s2 at h2
  have h3 : (if s.holdoffReached s.events.holdoff then s2.journalNotice else s2).Sound := by
    split
    · exact journalNotice_sound h2
    · exact h2
  generalize (if s.holdoffReached s.events.holdoff then s2.journalNotice else s2) = s3 at h3
  have h4 : (if s.idlePollReached then s3.idlePollExpired else s3).Sound := by
    split
    · exact idlePollExpired_sound h3
    · exact h3
  generalize (if s.idlePollReached then s3.idlePollExpired else s3) = s4 at h4
  split
  · exact timeOut_sound h4
  · exact h4

theorem tick_inv (k : s.Sound) : s.tick.Inv := (expire_sound (countTick_sound k)).arbitrated

end Sys2Proof.Machine
end

