-- ==== Sys2Proof/Laws/Units.lean ====
section
/-! SUPPORT. What the blocks that capture and write back leave of their own channel, and what an event handed over does. -/

namespace Sys2Proof.Machine

variable {s t u : State} {ch : Chan}

/-- What the Capture Assembler and the Writeback Unit leave of their channel: its Program Unit, Frame Synchronizer, Activity
Monitor and snapshot, and the counters of those blocks. -/
structure KeepsUnits (ch : Chan) (s t : State) : Prop where
  prog : (t.chan ch).prog = (s.chan ch).prog
  sync : (t.chan ch).sync = (s.chan ch).sync
  monitor : (t.chan ch).monitor = (s.chan ch).monitor
  latch : (t.chan ch).stats.latch = (s.chan ch).stats.latch
  latchedRequest : (t.chan ch).stats.latchedRequest = (s.chan ch).stats.latchedRequest
  served : (t.chan ch).stats.served = (s.chan ch).stats.served
  framesLocked : (t.chan ch).stats.counters.framesLocked = (s.chan ch).stats.counters.framesLocked
  flywheelFrames : (t.chan ch).stats.counters.flywheelFrames = (s.chan ch).stats.counters.flywheelFrames
  syncBitErrors : (t.chan ch).stats.counters.syncBitErrors = (s.chan ch).stats.counters.syncBitErrors
  losses : (t.chan ch).stats.counters.losses = (s.chan ch).stats.counters.losses
  slips : (t.chan ch).stats.counters.slips = (s.chan ch).stats.counters.slips
  polarityFlips : (t.chan ch).stats.counters.polarityFlips = (s.chan ch).stats.counters.polarityFlips
  quietEntries : (t.chan ch).stats.counters.quietEntries = (s.chan ch).stats.counters.quietEntries
  noclockEntries : (t.chan ch).stats.counters.noclockEntries = (s.chan ch).stats.counters.noclockEntries
  tornReads : (t.chan ch).stats.counters.tornReads = (s.chan ch).stats.counters.tornReads

theorem KeepsUnits.refl (ch : Chan) (s : State) : KeepsUnits ch s s := by constructor <;> rfl

theorem KeepsUnits.trans (h : KeepsUnits ch s t) (k : KeepsUnits ch t u) : KeepsUnits ch s u where
  prog := k.prog.trans h.prog
  sync := k.sync.trans h.sync
  monitor := k.monitor.trans h.monitor
  latch := k.latch.trans h.latch
  latchedRequest := k.latchedRequest.trans h.latchedRequest
  served := k.served.trans h.served
  framesLocked := k.framesLocked.trans h.framesLocked
  flywheelFrames := k.flywheelFrames.trans h.flywheelFrames
  syncBitErrors := k.syncBitErrors.trans h.syncBitErrors
  losses := k.losses.trans h.losses
  slips := k.slips.trans h.slips
  polarityFlips := k.polarityFlips.trans h.polarityFlips
  quietEntries := k.quietEntries.trans h.quietEntries
  noclockEntries := k.noclockEntries.trans h.noclockEntries
  tornReads := k.tornReads.trans h.tornReads

/-- An operation that touches no channel leaves the channel whole. -/
theorem KeepsChans.chan (h : KeepsChans s t) (ch : Chan) : t.chan ch = s.chan ch := h.others ch trivial

theorem KeepsChans.units (h : KeepsChans s t) (ch : Chan) : KeepsUnits ch s t := by
  constructor <;> rw [h.chan ch]

theorem hand_chan (s : State) (c : Option Chan) (b : EventBody) (ch : Chan) : (s.hand c b).chan ch = s.chan ch :=
  (hand_keeps s c b).chan ch

theorem requestRead_chan (s : State) (r : Request) (ch : Chan) : (s.requestRead r).chan ch = s.chan ch :=
  (requestRead_keeps s r).chan ch

theorem statusChanged_chan (s : State) (c ch : Chan) : (s.statusChanged c).chan ch = s.chan ch := request_chan s _ ch

/-! ## Requests leave events and events leave requests that wait -/

@[simp] theorem requestRead_events (s : State) (r : Request) : (s.requestRead r).events = s.events := by
  unfold State.requestRead; split <;> rfl

theorem journalWrite_queue (s : State) : s.journalWrite.events.queue = s.events.queue := by
  unfold State.journalWrite; split <;> rfl

theorem journalNext_queue (s : State) : s.journalNext.events.queue = s.events.queue := by
  unfold State.journalNext; split
  · split
    · exact journalWrite_queue s
    · rw [requestRead_events]; rfl
  · rfl

theorem journalNudged_events (s : State) : s.journalNudged.events = s.events := by
  unfold State.journalNudged State.requestRead; split
  · split <;> rfl
  · rfl

/-- A placement under way is not disturbed. -/
theorem journalNext_busy {s : State} (h : s.events.placement ≠ .idle) : s.journalNext = s :=
  if_neg fun hp => h hp.1

/-- R141: only a BLOCKED placement asks for a re-read. -/
theorem journalNudged_open {s : State} (h : s.events.placement ≠ .blocked) : s.journalNudged = s := if_neg h

/-- R136: an event that finds room joins the tail of the queue. -/
theorem hand_queue (s : State) (c : Option Chan) (b : EventBody) (h : s.device.takesEvents = true)
    (room : s.events.queue.length < 16) : (s.hand c b).events.queue = s.events.queue ++ [⟨c, b, s.timebase⟩] := by
  unfold State.hand
  rw [if_pos h, journalNext_queue, journalNudged_events]
  unfold State.enqueue
  rw [if_pos room]; rfl

/-- An event handed over leaves those that wait in the queue, in their order. -/
theorem hand_prefix (s : State) (c : Option Chan) (b : EventBody) :
    ∃ l, (s.hand c b).events.queue = s.events.queue ++ l := by
  unfold State.hand; split
  · rw [journalNext_queue, journalNudged_events]
    unfold State.enqueue; split
    · exact ⟨_, rfl⟩
    · refine ⟨[], ?_⟩
      rw [request_events, List.append_nil]; rfl
  · exact ⟨[], by simp⟩

/-- The events that wait in the queue of `s` wait in that of `t`, in their order and ahead of any others. -/
def EventsAppended (s t : State) : Prop := ∃ l, t.events.queue = s.events.queue ++ l

theorem EventsAppended.refl (s : State) : EventsAppended s s := ⟨[], (List.append_nil _).symm⟩

theorem EventsAppended.trans (h : EventsAppended s t) (k : EventsAppended t u) : EventsAppended s u := by
  obtain ⟨l, hl⟩ := h
  obtain ⟨m, hm⟩ := k
  exact ⟨l ++ m, by rw [hm, hl, List.append_assoc]⟩

theorem EventsAppended.of_eq (h : t.events = s.events) : EventsAppended s t := ⟨[], by rw [h, List.append_nil]⟩

theorem hand_appended (s : State) (c : Option Chan) (b : EventBody) : EventsAppended s (s.hand c b) := hand_prefix s c b

theorem request_appended (s : State) (r : Request) : EventsAppended s (s.request r) := .of_eq (by simp)

theorem channelState_appended (s : State) (ch : Chan) (c : Cause) : EventsAppended s (s.channelState ch c) :=
  (hand_appended s _ _).trans (request_appended _ _)

theorem startFraming_appended (s : State) (ch : Chan) (c : Cause) : EventsAppended s (s.startFraming ch c) :=
  (EventsAppended.of_eq rfl).trans (channelState_appended ((s.setRunState ch .running).startSync ch) ch c)

/-! ## Events reported -/

/-- R136: what an event handed over reports. -/
theorem hand_reports (s : State) (c : Option Chan) (b : EventBody) : s.Reports (s.hand c b) [(c, b)] :=
  fun h room => hand_queue s c b h (Nat.lt_of_succ_le room)

/-- An operation that leaves the events reports none. -/
theorem reports_none (h : t.events = s.events) : s.Reports t [] := fun _ _ => by rw [h]; simp

/-- Reports of one operation after another, where the first leaves the device state and the timebase. -/
theorem State.Reports.trans {l m : List (Option Chan × EventBody)} (h : s.Reports t l) (k : t.Reports u m)
    (device : t.device = s.device) (timebase : t.timebase = s.timebase) : s.Reports u (l ++ m) := by
  intro hd room
  have hl := h hd (by simp at room; omega)
  have hm := k (by rw [device]; exact hd) (by rw [hl]; simp at room ⊢; omega)
  rw [hm, hl, timebase]; simp

/-- What is reported depends on the device state, the timebase and the events alone. -/
theorem State.Reports.copy {s' u' : State} {l : List (Option Chan × EventBody)} (h : s.Reports u l)
    (device : s'.device = s.device) (timebase : s'.timebase = s.timebase) (events : s'.events = s.events)
    (events' : u'.events = u.events) : s'.Reports u' l := by
  intro hd room
  rw [events', events, timebase]
  exact h (by rw [← device]; exact hd) (by rw [← events]; exact room)

/-- An operation on each channel in turn that leaves the events that wait. -/
theorem forChans_appended (s : State) (f : Chan → State → State) (h : ∀ c u, EventsAppended u (f c u)) :
    EventsAppended s (s.forChans f) := by
  unfold State.forChans
  generalize allChans = l
  induction l generalizing s with
  | nil => exact .refl s
  | cons c rest ih => exact (h c s).trans (ih _)

/-- R69: a run state that changes is reported with the channel's run index. -/
theorem channelState_reports (s : State) (ch : Chan) (c : Cause) : s.Reports (s.channelState ch c)
    [(some ch, .channelState (s.chan ch).prog.runState (s.chan ch).prog.runIndex c)] :=
  (hand_reports s _ _).copy rfl rfl rfl (request_events _ _)

/-- R62: a channel that starts framing reports it. -/
theorem startFraming_reports (s : State) (ch : Chan) (c : Cause) : s.Reports (s.startFraming ch c)
    [(some ch, .channelState .running (s.chan ch).prog.runIndex c)] := by
  have h := channelState_reports ((s.setRunState ch .running).startSync ch) ch c
  have hp : (((s.setRunState ch .running).startSync ch).chan ch).prog = { (s.chan ch).prog with runState := .running } := by
    unfold State.startSync State.setRunState; rw [chan_modSync, chan_modProg]
  rw [hp] at h
  exact h.copy rfl rfl rfl rfl

/-- One operation for each channel, in which the channels of which `p` holds report one event each and the others none: the
events stand in the order CH0 to CH7 (log 32). -/
theorem forChans_reports (s : State) (f : Chan → State → State) (p : Channel → Bool) (e : Channel → EventBody)
    (keeps : ∀ c u, KeepsBut c u (f c u))
    (reports : ∀ (c : Chan) (u : State), p (u.chan c) = true → u.Reports (f c u) [(some c, e (u.chan c))])
    (silent : ∀ (c : Chan) (u : State), p (u.chan c) = false → (f c u).events = u.events) :
    s.Reports (s.forChans f) ((allChans.filter fun c => p (s.chan c)).map fun c => (some c, e (s.chan c))) := by
  have key : ∀ (l : List Chan) (s : State), l.Nodup → s.Reports (l.foldl (fun t c => f c t) s)
      ((l.filter fun c => p (s.chan c)).map fun c => (some c, e (s.chan c))) := by
    intro l
    induction l with
    | nil => intro s _; exact reports_none rfl
    | cons c rest ih =>
      intro s hn
      have hn' := List.nodup_cons.1 hn
      have hc : ∀ d ∈ rest, (f c s).chan d = s.chan d := fun d hd =>
        (keeps c s).others d fun h => hn'.1 (h ▸ hd)
      have h := ih (f c s) hn'.2
      rw [List.filter_congr fun d hd => by rw [hc d hd],
        List.map_congr_left fun d hd => by rw [hc d (List.mem_filter.1 hd).1]] at h
      cases hp : p (s.chan c) with
      | false =>
        rw [List.filter_cons_of_neg (by rw [hp]; exact Bool.false_ne_true), List.foldl_cons]
        exact h.copy (keeps c s).device.symm (keeps c s).timebase.symm (silent c s hp).symm rfl
      | true =>
        rw [List.filter_cons_of_pos (p := fun c => p (s.chan c)) hp, List.foldl_cons, List.map_cons]
        exact (reports c s hp).trans h (keeps c s).device (keeps c s).timebase
  exact key allChans s (by decide)

/-! ## Requests made -/

/-- The requests that `t` has made are those of `s` and then others; nothing else of the port has changed. -/
def RequestsAppended (s t : State) : Prop := ∃ l, t.port = { s.port with arrivals := s.port.arrivals ++ l }

theorem RequestsAppended.of_eq (h : t.port = s.port) : RequestsAppended s t := ⟨[], by rw [h, List.append_nil]⟩

theorem RequestsAppended.trans (h : RequestsAppended s t) (k : RequestsAppended t u) : RequestsAppended s u := by
  obtain ⟨l, hl⟩ := h
  obtain ⟨m, hm⟩ := k
  exact ⟨l ++ m, by rw [hm, hl, List.append_assoc]⟩

theorem Keeps.requests (h : Keeps p s t) : RequestsAppended s t := by
  obtain ⟨l, hl, _⟩ := h.port
  exact ⟨l, hl⟩

theorem enterDraining_requests (s : State) : RequestsAppended s s.enterDraining := by
  have h1 : RequestsAppended s (s.stopPoll.enterState .draining) :=
    (RequestsAppended.of_eq (t := { s.stopPoll with device := .draining }) rfl).trans (announce_keeps _).requests
  unfold State.enterDraining
  refine h1.trans ((drainAll_keeps _).requests.trans (.of_eq ?_))
  unfold State.drainTest; rw [modTest_port]

@[simp] theorem enterDraining_regs (s : State) : s.enterDraining.regs = s.regs := by
  unfold State.enterDraining State.drainTest
  rw [modTest_regs, (drainAll_keeps _).regs, enterState_regs]; rfl

/-- The end of a drain, while CTRL.RUN is 0: it makes further requests and leaves RUN. -/
theorem drainCheck_stays (s : State) (h : s.regs.run = false) :
    RequestsAppended s s.drainCheck ∧ s.drainCheck.regs.run = false := by
  have h1 : RequestsAppended s ((s.enterState .stopped).raise .drained) :=
    (RequestsAppended.of_eq (t := { s with device := .stopped }) rfl).trans
      ((announce_keeps _).requests.trans (.of_eq rfl))
  have hk := forChans_keeps ((s.enterState .stopped).raise .drained)
    (fun ch t => t.modMonitor ch fun m => { m with evaluating := false }) fun ch u => (modMonitor_keeps u ch _).none
  have hr : (((s.enterState .stopped).raise .drained).forChans fun ch t =>
      t.modMonitor ch fun m => { m with evaluating := false }).regs.run = false := by
    rw [hk.regs]
    show (s.enterState .stopped).regs.run = false
    rw [enterState_regs]; exact h
  unfold State.drainCheck; split
  · unfold State.enterStopped; dsimp only
    rw [if_neg (by rw [hr]; exact Bool.false_ne_true)]
    exact ⟨h1.trans hk.requests, hr⟩
  · exact ⟨.of_eq rfl, h⟩

/-- A device in RUNNING that follows CTRL.RUN makes further requests, and goes on RUNNING only while RUN is 1. -/
theorem followRun_requests (s : State) (h : s.device = .running) :
    RequestsAppended s s.followRun ∧ (s.followRun.device = .running ∨ s.followRun.regs.run = false) := by
  cases hr : s.regs.run with
  | true =>
    have he : s.followRun = s := by unfold State.followRun; rw [h, hr]
    rw [he]; exact ⟨.of_eq rfl, Or.inl h⟩
  | false =>
    have he : s.followRun = s.enterDraining.drainCheck := by unfold State.followRun; rw [h, hr]
    rw [he]
    have h := drainCheck_stays s.enterDraining (by rw [enterDraining_regs]; exact hr)
    exact ⟨(enterDraining_requests s).trans h.1, Or.inr h.2⟩

/-- What becomes due once writeback is settled makes further requests, where no session begins. -/
theorem settle_requests (s : State) (h : s.device = .running ∨ s.regs.run = false) : RequestsAppended s s.settle := by
  have hk := forChans_keeps s (fun ch t => t.settleChannel ch) fun ch u => (settleChannel_keeps u ch).none
  unfold State.settle
  refine hk.requests.trans ?_
  rcases h with h | h
  · unfold State.drainCheck
    rw [if_neg (by rw [hk.device, h]; exact fun e => by cases e.1)]
    exact .of_eq rfl
  · exact (drainCheck_stays _ (by rw [hk.regs]; exact h)).1

/-! ## The Writeback Unit and the Capture Assembler -/

theorem modWb_units (s : State) (ch : Chan) (f : Writeback → Writeback) : KeepsUnits ch s (s.modWb ch f) := by
  constructor <;> rw [chan_modWb]

theorem modCapture_units (s : State) (ch : Chan) (f : Capture → Capture) : KeepsUnits ch s (s.modCapture ch f) := by
  constructor <;> rw [chan_modCapture]

theorem placeGroup_units (s : State) (ch : Chan) (g : Group) : KeepsUnits ch s (s.placeGroup ch g) :=
  (modWb_units s ch _).trans ((request_keeps _ _).units ch)

theorem placeGroup_events (s : State) (ch : Chan) (g : Group) : (s.placeGroup ch g).events = s.events := rfl

theorem writebackNext_units (s : State) (ch : Chan) : KeepsUnits ch s (s.writebackNext ch) := by
  unfold State.writebackNext; split
  · split
    · exact placeGroup_units s ch _
    · exact (modWb_units s ch _).trans ((requestRead_keeps _ _).units ch)
  · exact .refl ch s

@[simp] theorem writebackNext_events (s : State) (ch : Chan) : (s.writebackNext ch).events = s.events := by
  unfold State.writebackNext; split
  · split
    · rfl
    · rw [requestRead_events]; rfl
  · rfl

theorem writebackNext_capture (s : State) (ch : Chan) : ((s.writebackNext ch).chan ch).capture = (s.chan ch).capture := by
  unfold State.writebackNext; split
  · split
    · unfold State.placeGroup; rw [request_chan, chan_modWb]
    · rw [requestRead_chan, chan_modWb]
  · rfl

theorem closeRecord_units (s : State) (ch : Chan) (b : Bool) (f : Fill) : KeepsUnits ch s (s.closeRecord ch b f) := by
  refine KeepsUnits.trans ?_ (writebackNext_units _ ch)
  constructor <;> simp [State.count]

@[simp] theorem closeRecord_events (s : State) (ch : Chan) (b : Bool) (f : Fill) :
    (s.closeRecord ch b f).events = s.events := by unfold State.closeRecord; simp [State.count]

theorem captureBit_units (s : State) (ch : Chan) (i : Nat) (b : Bool) : KeepsUnits ch s (s.captureBit ch i b) := by
  unfold State.captureBit; split
  · exact .refl ch s
  · dsimp only; split
    · exact closeRecord_units s ch _ _
    · exact modCapture_units s ch _

@[simp] theorem captureBit_events (s : State) (ch : Chan) (i : Nat) (b : Bool) :
    (s.captureBit ch i b).events = s.events := by
  unfold State.captureBit; split
  · rfl
  · dsimp only; split
    · exact closeRecord_events s ch _ _
    · rfl

theorem captureBits_units (s : State) (ch : Chan) (i : Nat) (bits : List Bool) :
    KeepsUnits ch s (s.captureBits ch i bits) := by
  induction bits generalizing s i with
  | nil => exact .refl ch s
  | cons b rest ih => exact (captureBit_units s ch i b).trans (ih _ _)

theorem truncate_units (s : State) (ch : Chan) : KeepsUnits ch s (s.truncate ch) := by
  unfold State.truncate; split
  · exact .refl ch s
  · have h : KeepsUnits ch s (s.count ch fun c => { c with truncatedRecords := saturate c.truncatedRecords 1 }) := by
      constructor <;> simp [State.count]
    dsimp only; split
    · exact h.trans (modCapture_units _ ch _)
    · exact h.trans (closeRecord_units _ ch _ _)

@[simp] theorem truncate_events (s : State) (ch : Chan) : (s.truncate ch).events = s.events := by
  unfold State.truncate; split
  · rfl
  · dsimp only; split
    · rfl
    · rw [closeRecord_events]; rfl

theorem closeRecord_fill (s : State) (ch : Chan) (b : Bool) (f : Fill) :
    ((s.closeRecord ch b f).chan ch).capture.fill = none := by
  unfold State.closeRecord; rw [writebackNext_capture]; simp [State.count]

/-- R108: after a truncation no record is in fill. -/
theorem truncate_fill (s : State) (ch : Chan) : ((s.truncate ch).chan ch).capture.fill = none := by
  unfold State.truncate
  cases h : (s.chan ch).capture.fill with
  | none => exact h
  | some f =>
    dsimp only; split
    · simp
    · exact closeRecord_fill _ ch _ _

theorem handBit_units (s : State) (ch : Chan) (r : RunProgram) : KeepsUnits ch s (s.handBit ch r) := by
  unfold State.handBit; dsimp only; split
  · exact captureBit_units s ch _ _
  · exact .refl ch s

@[simp] theorem handBit_events (s : State) (ch : Chan) (r : RunProgram) : (s.handBit ch r).events = s.events := by
  unfold State.handBit; dsimp only; split
  · exact captureBit_events s ch _ _
  · rfl

/-! ## The Activity Monitor -/

/-- A bit clock of the monitor leaves the channel's other blocks. -/
theorem monitorClock_chan (s : State) (ch : Chan) (b : Bool) :
    ∃ st, (s.monitorClock ch b).chan ch
      = { s.chan ch with monitor := (s.chan ch).monitor.clock (s.chan ch).prog.timeoutTicks b, stats := st }
      ∧ st = { (s.chan ch).stats with counters := st.counters } ∧
      st.counters = { (s.chan ch).stats.counters with
        quietEntries := st.counters.quietEntries, noclockEntries := st.counters.noclockEntries } := by
  unfold State.monitorClock; dsimp only; split
  · exact ⟨(s.chan ch).stats, by rw [chan_modMonitor], rfl, rfl⟩
  · unfold State.activityEntered
    rw [statusChanged_chan, hand_chan]
    refine ⟨_, by simp [State.count]; rfl, rfl, ?_⟩
    cases ((s.chan ch).monitor.clock (s.chan ch).prog.timeoutTicks b).state <;> rfl

theorem statusChanged_waits (s : State) (ch : Chan) : (s.statusChanged ch).port.waiting (.statusWrite ch) = true :=
  request_waits s _

/-! ## Starting, stopping and draining -/

theorem haltChannel_appended (s : State) (ch : Chan) (c : Cause) : EventsAppended s (s.haltChannel ch c) := by
  unfold State.haltChannel
  refine EventsAppended.trans ?_ (EventsAppended.of_eq (writebackNext_events _ ch))
  refine EventsAppended.trans (EventsAppended.of_eq ?_) (channelState_appended _ ch c)
  unfold State.stopSync
  rw [truncate_events]; rfl

/-- R68: a channel that is HALTED reports it. -/
theorem haltChannel_reports (s : State) (ch : Chan) (c : Cause) : s.Reports (s.haltChannel ch c)
    [(some ch, .channelState .halted (s.chan ch).prog.runIndex c)] := by
  have k : KeepsBut ch ((s.setRunState ch .halted).modSync ch (·.toOff)) ((s.setRunState ch .halted).stopSync ch) :=
    truncate_keeps _ ch
  have h := channelState_reports ((s.setRunState ch .halted).stopSync ch) ch c
  have hp : (((s.setRunState ch .halted).stopSync ch).chan ch).prog = { (s.chan ch).prog with runState := .halted } := by
    unfold State.stopSync
    rw [(truncate_units _ ch).prog, chan_modSync]
    unfold State.setRunState; rw [chan_modProg]
  rw [hp] at h
  refine h.copy k.device.symm k.timebase.symm ?_ (writebackNext_events _ ch)
  unfold State.stopSync; rw [truncate_events]; rfl

/-- R68, R87, R191: what the channels report at an entry to DRAINING. -/
theorem drainAll_reports (s : State) : s.Reports (s.forChans fun ch t => t.drainChannel ch)
    ((allChans.filter fun ch => (s.chan ch).prog.runState = .armed ∨ (s.chan ch).prog.runState = .running).map fun ch =>
      (some ch, .channelState .halted (s.chan ch).prog.runIndex .drain)) := by
  refine forChans_reports s _ (fun c => decide (c.prog.runState = .armed ∨ c.prog.runState = .running))
    (fun c => .channelState .halted c.prog.runIndex .drain) (fun c u => drainChannel_keeps u c) ?_ ?_
  · intro c u hp
    have h := haltChannel_reports (u.modProg c fun p => { p with held := none }) c .drain
    rw [chan_modProg] at h
    unfold State.drainChannel; rw [if_pos (of_decide_eq_true hp)]
    exact h.copy rfl rfl rfl rfl
  · intro c u hp
    unfold State.drainChannel; rw [if_neg (of_decide_eq_false hp)]; rfl

/-- R62, R201: what the ARMED channels report at a STRT edge. -/
theorem strtAll_reports (s : State) : s.Reports (s.forChans fun ch t => t.strtChannel ch)
    ((allChans.filter fun ch => (s.chan ch).prog.runState = .armed).map fun ch =>
      (some ch, .channelState .running (s.chan ch).prog.runIndex .strt)) := by
  refine forChans_reports s _ (fun c => decide (c.prog.runState = .armed))
    (fun c => .channelState .running c.prog.runIndex .strt) (fun c u => ?_) ?_ ?_
  · unfold State.strtChannel; split
    · exact startFraming_keeps u c _
    · exact .refl _ u
  · intro c u hp
    unfold State.strtChannel; rw [if_pos (of_decide_eq_true hp)]
    exact startFraming_reports u c .strt
  · intro c u hp
    unfold State.strtChannel; rw [if_neg (of_decide_eq_false hp)]

theorem drainChannel_appended (s : State) (ch : Chan) : EventsAppended s (s.drainChannel ch) := by
  have h : EventsAppended s (s.modProg ch fun p => { p with held := none }) := ⟨[], (List.append_nil _).symm⟩
  by_cases c : (s.chan ch).prog.runState = .armed ∨ (s.chan ch).prog.runState = .running
  · unfold State.drainChannel; rw [if_pos c]
    exact h.trans (haltChannel_appended _ ch .drain)
  · unfold State.drainChannel; rw [if_neg c]
    exact h

/-- R28, R62: a channel that starts framing. -/
theorem startFraming_chan (s : State) (ch : Chan) (c : Cause) : (s.startFraming ch c).chan ch =
    { s.chan ch with
      prog := { (s.chan ch).prog with runState := .running }
      sync := (s.chan ch).sync.clear.toSearch } := by
  unfold State.startFraming State.channelState
  rw [statusChanged_chan, hand_chan]
  simp [State.startSync, State.setRunState]

theorem startFraming_waits (s : State) (ch : Chan) (c : Cause) :
    (s.startFraming ch c).port.waiting (.statusWrite ch) = true := statusChanged_waits _ ch

/-- R64, R68: a channel that is HALTED: its run state, its synchronizer, and no record in fill. -/
theorem haltChannel_halts (s : State) (ch : Chan) (c : Cause) :
    ((s.haltChannel ch c).chan ch).prog = { (s.chan ch).prog with runState := .halted }
      ∧ ((s.haltChannel ch c).chan ch).sync = (s.chan ch).sync.toOff
      ∧ ((s.haltChannel ch c).chan ch).monitor = (s.chan ch).monitor
      ∧ ((s.haltChannel ch c).chan ch).capture.fill = none
      ∧ (s.haltChannel ch c).port.waiting (.statusWrite ch) = true := by
  have h0 : ((s.setRunState ch .halted).modSync ch (·.toOff)).chan ch
      = { s.chan ch with prog := { (s.chan ch).prog with runState := .halted }, sync := (s.chan ch).sync.toOff } := by
    simp [State.setRunState]
  have h1 := truncate_units ((s.setRunState ch .halted).modSync ch (·.toOff)) ch
  have h2 := writebackNext_units (((s.setRunState ch .halted).stopSync ch).channelState ch c) ch
  have hc : (((s.setRunState ch .halted).stopSync ch).channelState ch c).chan ch
      = ((s.setRunState ch .halted).stopSync ch).chan ch := by
    unfold State.channelState; rw [statusChanged_chan, hand_chan]
  have h3 : ((s.setRunState ch .halted).stopSync ch).chan ch
      = (((s.setRunState ch .halted).modSync ch (·.toOff)).truncate ch).chan ch := rfl
  unfold State.haltChannel
  refine ⟨?_, ?_, ?_, ?_, ?_⟩
  · rw [h2.prog, hc, h3, h1.prog, h0]
  · rw [h2.sync, hc, h3, h1.sync, h0]
  · rw [h2.monitor, hc, h3, h1.monitor, h0]
  · rw [writebackNext_capture, hc, h3]; exact truncate_fill _ ch
  · exact (writebackNext_keeps _ ch).waiting _ (statusChanged_waits _ ch)

/-- One operation for each channel, each touching its own channel only: what a channel holds in the end. -/
theorem forChans_chan (s : State) (f : Chan → State → State) (h : ∀ c u, KeepsBut c u (f c u)) (ch : Chan) :
    ∃ u, Keeps (fun _ => False) s u ∧ u.chan ch = s.chan ch
      ∧ (s.forChans f).chan ch = (f ch u).chan ch ∧ Keeps (fun c => c = ch) (f ch u) (s.forChans f) := by
  have key : ∀ (l : List Chan) (s : State), l.Nodup → ch ∈ l →
      ∃ u, Keeps (fun _ => False) s u ∧ u.chan ch = s.chan ch
        ∧ Keeps (fun c => c = ch) (f ch u) (l.foldl (fun t c => f c t) s) := by
    intro l
    induction l with
    | nil => intro s _ hm; cases hm
    | cons c rest ih =>
      intro s hn hm
      have hn' := List.nodup_cons.1 hn
      by_cases hc : c = ch
      · subst hc
        refine ⟨s, .refl _ s, rfl, ?_⟩
        have : ∀ (l : List Chan) (s : State), c ∉ l → Keeps (fun x => x = c) s (l.foldl (fun t x => f x t) s) := by
          intro l
          induction l with
          | nil => intro s _; exact .refl _ s
          | cons d rest ih =>
            intro s hd
            have hne : c ≠ d := fun e => hd (by rw [e]; exact List.mem_cons_self)
            have hk := h d s
            exact Keeps.trans { hk with others := fun x hx => hk.others x (by rw [hx]; exact hne) }
              (ih _ fun hm => hd (List.mem_cons_of_mem _ hm))
        exact this rest _ hn'.1
      · have hm' : ch ∈ rest := (List.mem_cons.1 hm).resolve_left fun e => hc e.symm
        obtain ⟨u, h1, h2, h3⟩ := ih (f c s) hn'.2 hm'
        exact ⟨u, (h c s).none.trans h1, h2.trans ((h c s).others ch fun e => hc e.symm), h3⟩
  obtain ⟨u, h1, h2, h3⟩ := key allChans s (by decide) (by cases ch <;> decide)
  exact ⟨u, h1, h2, h3.others ch rfl, h3⟩

end Sys2Proof.Machine
end

