-- ==== Sys2Proof/Laws/Channels.lean ====
section
/-! SUPPORT. What the larger operations of a channel's blocks leave of that channel, as functions of the channel alone; and
when two settings of the Test Source have one payload generator. -/

namespace Sys2Proof.Machine

variable {s : State} {ch : Chan}

/-! ## A channel after a truncation, and after a group is taken up: functions of that channel alone -/

/-- The room of the capture area of a channel (R114). -/
def Channel.areaRoom (c : Channel) : Nat :=
  match c.prog.area with
  | none => 0
  | some area => roomOf area.size c.wb.writeMark c.wb.acceptedRelease

/-- The Writeback Unit of a channel once it has looked for a group to take up (R120, R121, R127). -/
def Channel.wbTaking (ch : Chan) (c : Channel) : Writeback :=
  match c.wb.placement, c.nextGroup with
  | .idle, some g =>
    if g.needed ≤ c.areaRoom then
      { c.wb with placement := .writing g (c.groupBursts ch g), spell := if g.gap then none else c.wb.spell }
    else { c.wb with placement := .reread g }
  | _, _ => c.wb

/-- A channel whose Writeback Unit has looked for a group to take up; no other block of it changes. -/
def Channel.takenUp (ch : Chan) (c : Channel) : Channel := { c with wb := c.wbTaking ch }

/-- A channel whose record in fill has been truncated (R108). -/
def Channel.truncated (ch : Chan) (c : Channel) : Channel :=
  match c.capture.fill with
  | none => c
  | some f =>
    let n := { c.stats.counters with truncatedRecords := saturate c.stats.counters.truncatedRecords 1 }
    if f.cursor = 0 then { c with capture := { c.capture with fill := none }, stats := { c.stats with counters := n } }
    else
      Channel.takenUp ch
        { c with
          capture := { c.capture with
            fill := none
            queue := c.capture.queue ++ [⟨f.buffer, f.record ch true, f.frame.number, f.frame.timestamp, none⟩] }
          stats := { c.stats with counters := { n with framesCaptured := saturate n.framesCaptured 1 } } }

theorem writebackNext_chan (s : State) (ch : Chan) :
    (s.writebackNext ch).chan ch = (s.chan ch).takenUp ch := by
  unfold State.writebackNext Channel.takenUp Channel.wbTaking
  rw [show s.areaRoom ch = (s.chan ch).areaRoom from rfl]
  cases (s.chan ch).wb.placement with
  | idle =>
    cases (s.chan ch).nextGroup with
    | none => rfl
    | some g =>
      dsimp only
      by_cases h : g.needed ≤ (s.chan ch).areaRoom
      · simp only [if_pos h]; unfold State.placeGroup; rw [request_chan, chan_modWb]
      · simp only [if_neg h]; rw [requestRead_chan, chan_modWb]
  | _ => rfl

/-- R108: what a truncation leaves of its channel. -/
theorem truncate_chan (s : State) (ch : Chan) : (s.truncate ch).chan ch = (s.chan ch).truncated ch := by
  unfold State.truncate Channel.truncated
  cases (s.chan ch).capture.fill with
  | none => rfl
  | some f =>
    dsimp only
    by_cases h : f.cursor = 0
    · simp only [if_pos h]; rw [chan_modCapture, chan_count]
    · simp only [if_neg h]; unfold State.closeRecord; rw [writebackNext_chan, chan_count, chan_modCapture, chan_count]

/-- A truncation with no record in fill changes nothing. -/
theorem Channel.truncated_empty {ch : Chan} {c : Channel} (h : c.capture.fill = none) : c.truncated ch = c := by
  unfold Channel.truncated; rw [h]

/-- Taking up a group leaves every mark of the Writeback Unit as it was. -/
theorem Channel.takenUp_wb (ch : Chan) (c : Channel) : (c.takenUp ch).wb = { c.wb with
    placement := (c.takenUp ch).wb.placement, spell := (c.takenUp ch).wb.spell } := by
  unfold Channel.takenUp Channel.wbTaking; dsimp only; split
  · split <;> rfl
  · rfl

/-- A truncation leaves every mark of the Writeback Unit as it was (R58). -/
theorem Channel.truncated_wb (ch : Chan) (c : Channel) : (c.truncated ch).wb = { c.wb with
    placement := (c.truncated ch).wb.placement, spell := (c.truncated ch).wb.spell } := by
  unfold Channel.truncated; split
  · rfl
  · dsimp only; split
    · rfl
    · exact Channel.takenUp_wb ch _

theorem Channel.truncated_fill (ch : Chan) (c : Channel) : (c.truncated ch).capture.fill = none := by
  unfold Channel.truncated; split
  · assumption
  · dsimp only; split
    · rfl
    · rfl

/-- A second truncation changes nothing. -/
theorem Channel.truncated_twice (ch : Chan) (c : Channel) : (c.truncated ch).truncated ch = c.truncated ch :=
  truncated_empty (truncated_fill ch c)

/-- A truncation neither reads nor changes the synchronizer, the monitor, the decimation phase or the counters named here; of the
Program Unit it reads the capture area and the run index only. -/
theorem Channel.truncated_beside (ch : Chan) (c : Channel) (p : ProgramUnit) (y : Synchronizer) (m : Monitor) (phase : Nat)
    (losses quiet noclock : Word) (ha : p.area = c.prog.area) (hi : p.runIndex = c.prog.runIndex) :
    Channel.truncated ch { c with
      prog := p, sync := y, monitor := m, capture := { c.capture with phase := phase }
      stats := { c.stats with counters :=
        { c.stats.counters with losses := losses, quietEntries := quiet, noclockEntries := noclock } } }
    = { c.truncated ch with
      prog := p, sync := y, monitor := m, capture := { (c.truncated ch).capture with phase := phase }
      stats := { (c.truncated ch).stats with counters :=
        { (c.truncated ch).stats.counters with losses := losses, quietEntries := quiet, noclockEntries := noclock } } } := by
  unfold Channel.truncated
  cases h : c.capture.fill with
  | none => rfl
  | some f =>
    dsimp only
    split
    · rfl
    · unfold Channel.takenUp Channel.wbTaking Channel.nextGroup Channel.areaRoom Channel.groupBursts Channel.groupBytes
      dsimp only
      rw [ha, hi]
      generalize c.prog.area = area
      cases area <;> cases c.capture.queue <;> rfl

/-- The Program Unit, the synchronizer and the monitor of a channel after a truncation. -/
theorem Channel.truncated_blocks (ch : Chan) (c : Channel) :
    (c.truncated ch).prog = c.prog ∧ (c.truncated ch).sync = c.sync ∧ (c.truncated ch).monitor = c.monitor := by
  unfold Channel.truncated
  split
  · exact ⟨rfl, rfl, rfl⟩
  · dsimp only; split <;> exact ⟨rfl, rfl, rfl⟩

/-! ## Halting -/

/-- R29, R64, R68, R127: a channel that is HALTED: its synchronizer in OFF, its record in fill truncated, an open spell taken up. -/
theorem haltChannel_chan (s : State) (ch : Chan) (c : Cause) :
    (s.haltChannel ch c).chan ch = (({ s.chan ch with
      prog := { (s.chan ch).prog with runState := .halted }
      sync := (s.chan ch).sync.emptied .off } : Channel).truncated ch).takenUp ch := by
  unfold State.haltChannel State.channelState State.stopSync State.setRunState
  rw [writebackNext_chan, statusChanged_chan, hand_chan, truncate_chan, chan_modSync, chan_modProg]; rfl

/-! ## Loss of lock and of clock -/

/-- R24: a lock lost: the loss counts and the frame ends. -/
theorem lockLost_chan (s : State) (ch : Chan) (r : LossReason) :
    (s.lockLost ch r).chan ch = Channel.truncated ch { s.chan ch with
      stats := { (s.chan ch).stats with
        counters := { (s.chan ch).stats.counters with losses := saturate (s.chan ch).stats.counters.losses 1 } } } := by
  unfold State.lockLost; rw [truncate_chan, hand_chan, chan_count]

/-- R21: what a clock loss leaves of the synchronizer. -/
def Synchronizer.afterClockLoss (y : Synchronizer) : Synchronizer :=
  match y.state with
  | .off => y
  | .search => y.clear
  | .check | .lock | .flywheel => y.emptied .search

/-- R20, R24: a loss counts when the synchronizer was in LOCK or FLYWHEEL. -/
def Counters.lostFrom (n : Counters) (y : Synchronizer) : Counters :=
  { n with losses := if y.state = .lock ∨ y.state = .flywheel then saturate n.losses 1 else n.losses }

/-- R21, R37, R38, R109: entry to NOCLOCK: the monitor, what the clock loss leaves of the synchronizer, and the record in fill
truncated. -/
theorem enterNoclock_chan (s : State) (ch : Chan) :
    (s.enterNoclock ch).chan ch = Channel.truncated ch { s.chan ch with
      monitor := (s.chan ch).monitor.toNoclock
      sync := (s.chan ch).sync.afterClockLoss
      stats := { (s.chan ch).stats with
        counters := ((s.chan ch).stats.counters.activityEntered .noclock).lostFrom (s.chan ch).sync } } := by
  have h0 : ((s.modMonitor ch (·.toNoclock)).activityEntered ch .noclock).chan ch = { s.chan ch with
      monitor := (s.chan ch).monitor.toNoclock
      stats := { (s.chan ch).stats with counters := (s.chan ch).stats.counters.activityEntered .noclock } } := by
    unfold State.activityEntered; rw [hand_chan, chan_count, chan_modMonitor]
  unfold State.enterNoclock
  rw [statusChanged_chan, truncate_chan]
  unfold State.clockLost
  rw [show (((s.modMonitor ch (·.toNoclock)).activityEntered ch .noclock).chan ch).sync = (s.chan ch).sync by rw [h0]]
  unfold Synchronizer.afterClockLoss Counters.lostFrom
  cases h : (s.chan ch).sync.state <;> dsimp only
  · rw [h0]; simp
  · rw [chan_modSync, h0]; simp
  · rw [statusChanged_chan, chan_modSync, h0]; simp; rfl
  · rw [statusChanged_chan, lockLost_chan, chan_modSync, h0, Channel.truncated_twice]; simp; rfl
  · rw [statusChanged_chan, lockLost_chan, chan_modSync, h0, Channel.truncated_twice]; simp; rfl

/-- R41: the restart on a new input. -/
theorem restartMonitor_chan (s : State) (ch : Chan) :
    (s.restartMonitor ch).chan ch = { s.chan ch with
      monitor := (s.chan ch).monitor.restart
      stats := { (s.chan ch).stats with
        counters := if (s.chan ch).monitor.state = .quiet then (s.chan ch).stats.counters
          else (s.chan ch).stats.counters.activityEntered .quiet } } := by
  unfold State.restartMonitor; dsimp only; split
  · rw [chan_modMonitor]
  · unfold State.activityEntered; rw [statusChanged_chan, hand_chan, chan_count, chan_modMonitor]

/-! ## Programs applied -/

/-- R88: a program in force. -/
theorem adopt_chan (s : State) (ch : Chan) (p : Program) (c : ChangeClass) :
    (s.adopt ch p c).chan ch = { s.chan ch with
      prog := { (s.chan ch).prog with
        inForce := some p
        settings := match p with
          | .run r => some r
          | .halt _ _ => (s.chan ch).prog.settings } } := by
  unfold State.adopt; cases p <;> rw [hand_chan, request_chan, chan_modProg]

/-- R89: CUT. -/
theorem cut_chan (s : State) (ch : Chan) (r : RunProgram) :
    (s.cut ch r).chan ch = if r.cut then (s.chan ch).truncated ch else s.chan ch := by
  unfold State.cut; split
  · rw [truncate_chan]
  · rfl

/-- R22, R58: the heavy change on a RUNNING channel. -/
theorem retune_chan (s : State) (ch : Chan) (invert : Bool) :
    (s.retune ch invert).chan ch =
      let y := (s.chan ch).sync
      let c := { s.chan ch with sync := { y.emptied .search with inverted := invert } }
      if y.framing then Channel.truncated ch { c with
        stats := { c.stats with
          counters := { c.stats.counters with losses := saturate c.stats.counters.losses 1 } } }
      else c := by
  have h1 : ∀ (b : Prop) [Decidable b] (u : State), (if b then u else u.statusChanged ch).chan ch = u.chan ch := by
    intro b _ u; split
    · rfl
    · exact statusChanged_chan _ _ _
  unfold State.retune; dsimp only; rw [h1]; split
  · rw [lockLost_chan, chan_modSync]; rfl
  · rw [chan_modSync]; rfl

/-- R57, R93: the light change. -/
theorem lighten_chan (s : State) (ch : Chan) (r : RunProgram) (d : Nat) :
    (s.lighten ch r d).chan ch = { s.chan ch with
      sync := (s.chan ch).sync.adjust r
      capture := { (s.chan ch).capture with phase := if r.decimation = d then (s.chan ch).capture.phase else 0 } } := by
  unfold State.lighten; dsimp only; split
  · rw [chan_modSync]
  · unfold State.restartPhase; rw [chan_modCapture, chan_modSync]

/-- R22, R28: the inversion state that a program gives an ARMED channel. -/
theorem armedInvert_chan (s : State) (ch : Chan) (invert : Bool) :
    (s.armedInvert ch invert).chan ch = { s.chan ch with sync := { (s.chan ch).sync with inverted := invert } } := by
  unfold State.armedInvert; split
  · rename_i h; rw [← h]
  · rw [statusChanged_chan, chan_modSync]

/-! ## Drops and write errors -/

/-- R122, R124, R125: the record at the head of the queue dropped for NOROOM, its tally taken into the spell behind it. -/
theorem noroomDrop_chan (s : State) (ch : Chan) (r : ClosedRecord) (rest : List ClosedRecord)
    (hq : (s.chan ch).capture.queue = r :: rest) :
    let one := oneDrop r.frameNumber r.timestamp
    let spell := ((s.chan ch).wb.spell.map fun d => d.extend .noroom one).getD (one.open .noroom)
    (s.noroomDrop ch).chan ch = { s.chan ch with
      capture := { (s.chan ch).capture with queue := rest }
      wb := { (s.chan ch).wb with
        placement := .idle, spell := some ((r.tally.map fun t => spell.extend .stall t).getD spell) }
      stats := { (s.chan ch).stats with
        counters := { (s.chan ch).stats.counters with
          dropsNoroom := saturate (s.chan ch).stats.counters.dropsNoroom 1 } } } := by
  intro one spell
  unfold State.noroomDrop; rw [hq]; dsimp only
  generalize hv : ((s.releaseHead ch).endPlacement ch).count ch
    (fun c => { c with dropsNoroom := saturate c.dropsNoroom 1 }) = v
  have hc : v.chan ch = { s.chan ch with
      capture := { (s.chan ch).capture with queue := rest }
      wb := { (s.chan ch).wb with placement := .idle }
      stats := { (s.chan ch).stats with
        counters := { (s.chan ch).stats.counters with
          dropsNoroom := saturate (s.chan ch).stats.counters.dropsNoroom 1 } } } := by
    rw [← hv, chan_count]; unfold State.endPlacement State.releaseHead; rw [chan_modWb, chan_modCapture, hq]; rfl
  have hw : (v.takeIntoSpell ch .noroom one).chan ch = { v.chan ch with wb := { (v.chan ch).wb with spell := some spell } } := by
    unfold State.takeIntoSpell; rw [show (v.chan ch).wb.spell = (s.chan ch).wb.spell by rw [hc]]
    simp only [spell]
    cases (s.chan ch).wb.spell with
    | none => dsimp only; rw [hand_chan, chan_modWb]; rfl
    | some d => dsimp only; rw [chan_modWb]; rfl
  show (State.takeTally (v.takeIntoSpell ch .noroom one) ch r.tally).chan ch = _
  generalize v.takeIntoSpell ch .noroom one = z at hw
  unfold State.takeTally
  cases r.tally with
  | none => dsimp only; rw [hw, hc]; rfl
  | some t =>
    dsimp only; unfold State.takeIntoSpell
    rw [show (z.chan ch).wb.spell = some spell by rw [hw]]
    dsimp only; rw [chan_modWb, hw, hc]; rfl

/-- R29, R66, R92, R132: a channel at its entry to FAILED. -/
theorem burstFailed_chan (s : State) (ch : Chan) (address : Nat) :
    (s.burstFailed ch address).chan ch = { s.chan ch with
      prog := { (s.chan ch).prog with runState := .failed, held := none }
      sync := (s.chan ch).sync.emptied .off
      capture := { fill := none, queue := [], phase := 0 }
      wb := { (s.chan ch).wb with spell := none, placement := .idle } } := by
  unfold State.burstFailed State.failChannel State.channelState
  rw [statusChanged_chan, hand_chan, chan_modChan, hand_chan]; rfl

/-! ## The Test Source -/

/-- R164, R166: settings have the same payload generator when lfsr_length, lfsr_tap and the seed's bits below n agree. -/
theorem sameGenerator_iff (new old : TestSettings) :
    new.sameGenerator old = true ↔ new.lfsrLength = old.lfsrLength ∧ new.lfsrTap = old.lfsrTap
      ∧ new.seed.toNat % 2 ^ new.lfsrLength = old.seed.toNat % 2 ^ new.lfsrLength := by
  have hl : ∀ (n : Nat) (a b : Word), lfsrLoad n a = lfsrLoad n b ↔ a.toNat % 2 ^ n = b.toNat % 2 ^ n := by
    intro n a b
    have h : ∀ x : Word, x.toNat % 2 ^ n < 2 ^ 32 := fun x => Nat.lt_of_le_of_lt (Nat.mod_le _ _) x.isLt
    unfold lfsrLoad
    rw [← BitVec.toNat_inj, BitVec.toNat_ofNat, BitVec.toNat_ofNat, Nat.mod_eq_of_lt (h a), Nat.mod_eq_of_lt (h b)]
  unfold TestSettings.sameGenerator
  simp only [Bool.and_eq_true, beq_iff_eq, and_assoc]
  constructor
  · rintro ⟨a, b, c⟩; rw [← a] at c; exact ⟨a, b, (hl _ _ _).1 c⟩
  · rintro ⟨a, b, c⟩; refine ⟨a, b, ?_⟩; rw [← a]; exact (hl _ _ _).2 c

end Sys2Proof.Machine
end

