-- ==== Sys2Proof/Laws/Rows.lean ====
section
/-! SUPPORT. What the commands have in common: commands while RSTN is high, responses, and grants. -/

namespace Sys2Proof.Machine

variable {s t u : State} {ch : Chan}

/-- While RSTN is not low, a command has its effect. -/
theorem live_next (f : State → State) (h : s.resetHeld = false) : s.live f = .next (f s) := by
  unfold State.live; rw [h]; rfl

/-- While RSTN is low, a command has none. -/
theorem live_held (f : State → State) (h : s.resetHeld = true) : s.live f = .next s := by
  unfold State.live; rw [h]; rfl

/-! ## The rows that need RSTN high -/

theorem exec_softReset (s : State) (run irqen : Bool) :
    exec (.softReset run irqen) s = s.live State.softReset := rfl

theorem exec_ctrlRun (s : State) (run : Bool) :
    exec (.ctrlRun run) s = s.live fun t => (t.writeCtrl run t.regs.irqen).arbitrate := rfl

theorem exec_ctrlIrqen (s : State) (irqen : Bool) :
    exec (.ctrlIrqen irqen) s = s.live fun t => (t.writeCtrl t.regs.run irqen).arbitrate := rfl

theorem exec_registerWrite (s : State) (o : Nat) (l : BitVec 4) (v : Word) :
    exec (.registerWrite o l v) s = s.live fun t => (t.writeWindow o l v).arbitrate := rfl

/-- A register's offset picks that register. -/
@[simp] theorem registerAt_offset (r : Register) : registerAt (registerOffset r) = some r := by cases r <;> rfl

/-- R196: a four-byte write at a register's offset is a write of that register. -/
theorem writeWindow_whole (s : State) (r : Register) (v : Word) : s.writeWindow (registerOffset r) 0xF v = s.writeRegister r v := by
  unfold State.writeWindow
  rw [show registerCovered (registerOffset r) 0xF = some r by cases r <;> rfl]

/-- R196: a write that covers no register whole, narrower than four bytes or not at a register's offset, changes nothing. -/
theorem writeWindow_partial (s : State) (o : Nat) (l : BitVec 4) (h : l ≠ 0xF ∨ o % 4 ≠ 0) (v : Word) :
    s.writeWindow o l v = s := by
  unfold State.writeWindow registerCovered
  rw [if_neg fun e => h.elim (· e.1) (· e.2)]

theorem exec_irqPendWrite (s : State) (v : Word) :
    exec (.irqPendWrite v) s = s.live fun t => t.writeIrqPend v := rfl

theorem exec_irqMaskWrite (s : State) (v : Word) :
    exec (.irqMaskWrite v) s = s.live fun t => t.writeIrqMask v := rfl

theorem exec_nudgeSlotSample (s : State) (c : Byte) :
    exec (.nudgeSlotSample c) s = s.live fun t => (t.nudge c false false false).arbitrate := rfl

theorem exec_nudgeJournalReread (s : State) :
    exec .nudgeJournalReread s = s.live fun t => (t.nudge 0 true false false).arbitrate := rfl

theorem exec_nudgeTestSample (s : State) :
    exec .nudgeTestSample s = s.live fun t => (t.nudge 0 false true false).arbitrate := rfl

theorem exec_nudgeTestInject (s : State) :
    exec .nudgeTestInject s = s.live fun t => t.nudge 0 false false true := rfl

theorem exec_strtRisingEdge (s : State) :
    exec .strtRisingEdge s = s.live fun t => t.strtEdge.arbitrate := rfl

theorem exec_bitClock (s : State) (ch : Chan) (b : Bool) :
    exec (.bitClock ch b) s = s.live fun t => t.lineBit ch b := rfl

theorem exec_checkDecision (s : State) (ch : Chan) (b : Bool) :
    exec (.checkDecision ch b) s = s.live fun t => if Channel.checkDue (t.chan ch) then t.lineBit ch b else t := rfl

theorem exec_lockDecision (s : State) (ch : Chan) (b : Bool) :
    exec (.lockDecision ch b) s = s.live fun t => if Channel.lockDue (t.chan ch) then t.lineBit ch b else t := rfl

theorem exec_latePositionDecision (s : State) (ch : Chan) (b : Bool) :
    exec (.latePositionDecision ch b) s = s.live fun t =>
      if Channel.lateDue (t.chan ch) then t.lineBit ch b else t := rfl

theorem exec_quietEntry (s : State) (ch : Chan) (b : Bool) :
    exec (.quietEntry ch b) s = s.live fun t => if Channel.quietDue b (t.chan ch) then t.lineBit ch b else t := rfl

theorem exec_activeEntry (s : State) (ch : Chan) (b : Bool) :
    exec (.activeEntry ch b) s = s.live fun t => if Channel.activeDue b (t.chan ch) then t.lineBit ch b else t := rfl

theorem exec_quietWindowEnd (s : State) (ch : Chan) (b : Bool) :
    exec (.quietWindowEnd ch b) s = s.live fun t =>
      if Channel.windowEndDue b (t.chan ch) then t.lineBit ch b else t := rfl

theorem exec_noclockRecovery (s : State) (ch : Chan) (b : Bool) :
    exec (.noclockRecovery ch b) s = s.live fun t => if Channel.recoveryDue (t.chan ch) then t.lineBit ch b else t := rfl

theorem exec_gapTimerExpiry (s : State) (ch : Chan) :
    exec (.gapTimerExpiry ch) s = s.live fun t => if (t.chan ch).gapRunning then (t.gapExpired ch).arbitrate else t := rfl

theorem exec_idlePollExpiry (s : State) :
    exec .idlePollExpiry s = s.live fun t => if t.idlePoll.isSome then t.idlePollExpired.arbitrate else t := rfl

theorem exec_captureHoldoffExpiry (s : State) (ch : Chan) :
    exec (.captureHoldoffExpiry ch) s = s.live fun t =>
      if (t.chan ch).wb.holdoff.isSome then t.captureNotice ch else t := rfl

theorem exec_journalHoldoffExpiry (s : State) :
    exec .journalHoldoffExpiry s = s.live fun t => if t.events.holdoff.isSome then t.journalNotice else t := rfl

theorem exec_responseTimeout (s : State) :
    exec .responseTimeout s = s.live State.timeOut := rfl

theorem exec_drainEnd (s : State) :
    exec .drainEnd s = s.live fun t =>
      if t.device = .draining ∧ t.allSettled = true then t.enterStopped.arbitrate else t := rfl

theorem exec_writebackSettled (s : State) (ch : Chan) :
    exec (.writebackSettled ch) s = s.live fun t => if t.heldRunDue ch then (t.takeHeld ch).arbitrate else t := rfl

theorem exec_timebaseTick (s : State) :
    exec .timebaseTick s = s.live State.tick := rfl

theorem exec_testSourceBitClock (s : State) :
    exec .testSourceBitClock s = s.live fun t => t.testBitClock.arbitrate := rfl

theorem exec_testFrameStart (s : State) :
    exec .testFrameStart s = s.live fun t =>
      if t.emitting.any (TestSource.lastBit t.test) then t.testBitClock.arbitrate else t := rfl

theorem exec_rateErrorInsertion (s : State) :
    exec .rateErrorInsertion s = s.live fun t =>
      if t.emitting.any (TestSource.rateBit t.test) then t.testBitClock.arbitrate else t := rfl

theorem exec_syncCorruption (s : State) :
    exec .syncCorruption s = s.live fun t =>
      if t.emitting.any (TestSource.corruptionDue t.test) then t.testBitClock.arbitrate else t := rfl

/-! ## Responses -/

/-- R180: an ERROR response completes the transaction it answers. -/
theorem respond_error {w : Transaction} {r : Request} (h : s.Answering r w) :
    s.respond r .error = .next (s.complete w .error) := by
  unfold State.respond; rw [h.flying]
  show (if w.request = r ∧ s.resetHeld = false then _ else _) = _
  rw [if_pos ⟨h.request, h.live⟩]; rfl

/-- R180: an OKAY response to a write completes it. -/
theorem respond_written {w : Transaction} {r : Request} (h : s.Answering r w) (hw : r.isWrite = true) :
    s.respond r (.okay []) = .next (s.complete w (.okay [])) := by
  unfold State.respond; rw [h.flying]
  show (if w.request = r ∧ s.resetHeld = false then _ else _) = _
  rw [if_pos ⟨h.request, h.live⟩, if_pos]
  unfold Transaction.fits; rw [h.request, hw]; rfl

/-- R180: an OKAY response to a read that brings the bytes asked for completes it. -/
theorem respond_read {w : Transaction} {r : Request} {bytes : List Byte} (h : s.Answering r w)
    (hb : bytes.length = w.length) : s.respond r (.okay bytes) = .next (s.complete w (.okay bytes)) := by
  unfold State.respond; rw [h.flying]
  show (if w.request = r ∧ s.resetHeld = false then _ else _) = _
  rw [if_pos ⟨h.request, h.live⟩, if_pos]
  unfold Transaction.fits; simp [hb]

/-- A transaction that carries no bytes places none. -/
theorem placeBytes_nothing {w : Transaction} (h : w.data = []) : s.placeBytes w = s := by
  unfold State.placeBytes; rw [h]; rfl

theorem spoilBytes_nothing {w : Transaction} (h : w.data = []) : s.spoilBytes w = s := by
  unfold State.spoilBytes; rw [h]; rfl

/-- A read that completes with OKAY: the port is free and the block that asked has the bytes. -/
theorem complete_read {w : Transaction} {r : Request} {bytes : List Byte} (h : s.Answering r w)
    (k : s.port.ReadsCarryNothing) (hr : r.isWrite = false) :
    s.complete w (.okay bytes) = ((s.freePort.succeeded w bytes).settle).regrant := by
  unfold State.complete State.bytesWritten State.deliver
  rw [placeBytes_nothing (k w h.flying (by rw [h.request]; exact hr)), h.expected]; rfl

/-- A read that completes with ERROR. -/
theorem complete_read_error {w : Transaction} {r : Request} (h : s.Answering r w)
    (k : s.port.ReadsCarryNothing) (hr : r.isWrite = false) :
    s.complete w .error = ((s.freePort.failed w).settle).regrant := by
  unfold State.complete State.bytesWritten State.deliver
  rw [spoilBytes_nothing (k w h.flying (by rw [h.request]; exact hr)), h.expected]; rfl

/-- A write that completes with OKAY: its bytes are in memory, and the block that asked goes on. -/
theorem complete_write {w : Transaction} {r : Request} (h : s.Answering r w) :
    s.complete w (.okay []) = (((s.freePort.placeBytes w).succeeded w []).settle).regrant := by
  unfold State.complete State.bytesWritten State.deliver
  rw [h.expected]; rfl

/-- A write that completes with ERROR: its bytes are free. -/
theorem complete_write_error {w : Transaction} {r : Request} (h : s.Answering r w) :
    s.complete w .error = (((s.freePort.spoilBytes w).failed w).settle).regrant := by
  unfold State.complete State.bytesWritten State.deliver
  rw [h.expected]; rfl

end Sys2Proof.Machine
end

