-- ==== Sys2Proof/Laws/Outcomes.lean ====
section
/-! SUPPORT. What the larger shared operations leave: refusals, faults, bursts, bit clocks, and frames begun or lost. -/

namespace Sys2Proof.Machine

variable {s t u : State} {ch : Chan}

/-- The command that answers a request with ERROR is that request's response. -/
theorem exec_failure (r : Request) (s : State) : exec r.failure s = s.respond r .error := by cases r <;> rfl

/-- The command that answers a request with OKAY is that request's response; a write brings no bytes. -/
theorem exec_success (bytes : List Byte) (r : Request) (s : State) :
    exec (r.success bytes) s = s.respond r (.okay (if r.isWrite then [] else bytes)) := by cases r <;> rfl

/-- R83: what a refusal leaves. -/
theorem reject_leaves (s : State) (ch : Chan) (g : Word) (r : RejectReason) :
    KeepsBut ch s (s.reject ch g r)
      ∧ (s.reject ch g r).chan ch
        = { s.chan ch with prog := { (s.chan ch).prog with rejected := g, rejectReason := r } }
      ∧ s.Reports (s.reject ch g r) [(some ch, .programRejected r g)]
      ∧ (s.reject ch g r).port.waiting (.generationWrite ch) = true := by
  refine ⟨reject_keeps _ _ _ _, ?_, ?_, ?_⟩
  · unfold State.reject; rw [hand_chan, request_chan, chan_modProg]
  · exact (hand_reports _ _ _).copy (by rw [(request_keeps _ _).device]; rfl)
      (by rw [(request_keeps _ _).timebase]; rfl) (by rw [request_events]; rfl) rfl
  · exact (hand_keeps _ _ _).waiting _ (request_waits _ _)

/-! ## FAULTED -/

/-- R184: nothing waits at the port once the device is FAULTED. -/
theorem atFaulted_waiting (p : Port) (r : Request) : p.atFaulted.waiting r = false := by
  unfold Port.waiting
  cases r <;> simp [Port.queued, Port.atFaulted]

/-- What waited at the entry and stays frozen: everything but the requests of the placements (log 34). -/
theorem toFreeze_waiting (p : Port) (r : Request) :
    p.toFreeze.waiting.contains r = (p.waiting r && !r.ofPlacement) := by
  have ha : (p.arrivals.map (·.request)).contains r = p.arrivals.any fun t => t.request == r := by
    induction p.arrivals with
    | nil => rfl
    | cons t l ih =>
      have hc : (r == t.request) = (t.request == r) := by rw [Bool.eq_iff_iff]; simp only [beq_iff_eq]; exact eq_comm
      rw [List.map_cons, List.contains_cons, ih, List.any_cons, hc]
  have hf : ∀ l : List Request, (l.filter fun r => !r.ofPlacement).contains r = (l.contains r && !r.ofPlacement) := by
    intro l; rw [Bool.eq_iff_iff]; simp
  unfold Port.toFreeze Port.waiting
  rw [hf, ← ha]
  cases r <;> simp [Port.queued, Request.ofPlacement, Bool.or_assoc]

/-- Nothing is left to grant once the device is FAULTED. -/
theorem atFaulted_choice (p : Port) : p.atFaulted.choice = none := by
  unfold Port.choice Port.atFaulted Port.classCChoice Port.anyClassC
  cases p.roundRobin <;> simp [chansFrom, allChans, chanNumber, PerChannel.all, List.find?, PerChannel.get]

theorem enterFaulted_chan (s : State) (c : FaultCode) (ch : Chan) :
    (s.enterFaulted c).chan ch = Channel.freeze (s.spoilInFlight.chan ch) := PerChannel.get_map Channel.freeze _ ch

/-- R193: an entry to FAULTED stops everything. -/
theorem enterFaulted_still (s : State) (c : FaultCode) : (s.enterFaulted c).Still where
  device := rfl
  idlePoll := rfl
  inFlight := rfl
  timer := rfl
  granted := Or.inr (atFaulted_choice _)
  arrived := rfl
  channels := fun ch => by rw [enterFaulted_chan]; exact ⟨rfl, rfl⟩
  holdoff := rfl

/-- R193: entry to FAULTED with nothing in flight. -/
theorem enterFaulted_leaves (s : State) (c : FaultCode) (h : s.port.inFlight = none) :
    s.Faults (s.enterFaulted c) c := by
  have hs : s.spoilInFlight = s := by unfold State.spoilInFlight; rw [h]
  have he : s.enterFaulted c = { s with
      device := .faulted
      faultCode := c
      idlePoll := none
      chans := s.chans.map Channel.freeze
      events := { s.events with holdoff := none }
      port := s.port.atFaulted
      frozen := s.port.toFreeze
      regs := { s.regs with irqPend := s.regs.irqPend ||| 0x200 } } := by
    unfold State.enterFaulted; dsimp only; rw [hs]; rfl
  have hc : ∀ ch, (s.enterFaulted c).chan ch = Channel.freeze (s.chan ch) := by
    intro ch; rw [he]; exact PerChannel.get_map Channel.freeze s.chans ch
  constructor
  case prog => intro ch; rw [hc]; rfl
  case sync => intro ch; rw [hc]; rfl
  case monitor => intro ch; rw [hc]; rfl
  case capture => intro ch; rw [hc]; rfl
  case wb => intro ch; rw [hc]; rfl
  case stats => intro ch; rw [hc]; rfl
  case port =>
    intro r; rw [he]; unfold Port.outstanding; rw [atFaulted_waiting]; rfl
  case still => exact enterFaulted_still s c
  case flies =>
    intro r; rw [he]; unfold State.flies Port.toFreeze
    simp [h, Port.flying, Port.atFaulted]
  case waits =>
    intro r; rw [he]; unfold State.waits
    rw [toFreeze_waiting, atFaulted_waiting, Bool.false_or]
  all_goals rw [he] <;> rfl

/-- In FAULTED nothing is due once writeback is settled, and nothing waits for a grant. -/
theorem enterFaulted_settle (s : State) (c : FaultCode) : ((s.enterFaulted c).settle).regrant = s.enterFaulted c := by
  have hd : (s.enterFaulted c).device = .faulted := rfl
  have h1 : ∀ u : State, u.device = .faulted → ∀ ch, u.settleChannel ch = u := by
    intro u hu ch; unfold State.settleChannel; dsimp only; rw [if_neg]; rw [hu]; intro h; cases h.1
  have h2 : ∀ l : List Chan, l.foldl (fun t ch => State.settleChannel t ch) (s.enterFaulted c) = s.enterFaulted c := by
    intro l; induction l with
    | nil => rfl
    | cons a l ih => simp only [List.foldl_cons]; rw [h1 _ hd]; exact ih
  have h3 : (s.enterFaulted c).settle = s.enterFaulted c := by
    unfold State.settle State.forChans; rw [h2]
    unfold State.drainCheck; rw [if_neg]; rw [hd]; intro h; cases h.1
  rw [h3]
  exact regrant_of_granted _ (enterFaulted_still s c).granted (enterFaulted_still s c).arrived

/-! ## Bursts -/

theorem bodyBursts_length (n a : Nat) (l : List Byte) : (bodyBursts n a l).length = n := by
  induction n generalizing a l with
  | zero => rfl
  | succ n ih => simp [bodyBursts, ih]

theorem bodyBursts_get (n a : Nat) (l : List Byte) (k : Nat) (hk : k < n) :
    (bodyBursts n a l)[k]? = some ⟨a + 256 * k, (l.drop (256 * k)).take 256⟩ := by
  induction n generalizing a l k with
  | zero => omega
  | succ n ih =>
    cases k with
    | zero => simp [bodyBursts]
    | succ k =>
      simp only [bodyBursts, List.getElem?_cons_succ]
      rw [ih _ _ _ (by omega), List.drop_drop]
      simp; constructor
      · omega
      · congr 2; omega

/-! ## Bit clocks and frames -/

/-- R32, R33: a bit clock that an evaluating monitor hears outside NOCLOCK. -/
theorem bitClock_delivered (ch : Chan) (bit : Bool) (s : State) (h : s.resetHeld = false)
    (hi : (s.chan ch).prog.input = .line) (he : (s.chan ch).monitor.evaluating = true)
    (hn : (s.chan ch).monitor.state ≠ .noclock) :
    exec (.bitClock ch bit) s = .next (((s.monitorClock ch bit).takeBit ch bit).arbitrate) := by
  rw [exec_bitClock, live_next _ h]; unfold State.lineBit; rw [if_pos hi]; unfold State.bitClock; dsimp only
  rw [if_pos he, if_neg hn]

/-- An update of the synchronizer, by the value it gives. -/
theorem modSync_const (s : State) (ch : Chan) (f : Synchronizer → Synchronizer) :
    s.modSync ch f = s.modSync ch fun _ => f (s.chan ch).sync := rfl

/-- R2, R17: a bit taken in LOCK or FLYWHEEL is handed on for the frame in progress, and then decided upon. -/
theorem takeBit_framing (s : State) (ch : Chan) (bit : Bool) (r : RunProgram)
    (hp : (s.chan ch).prog.settings = some r) (hf : (s.chan ch).sync.state = .lock ∨ (s.chan ch).sync.state = .flywheel) :
    let y := (s.chan ch).sync.take r bit
    s.takeBit ch bit = ((s.modSync ch fun _ => y).captureBit ch (r.syncLength - 1 + y.position) (bit != y.inverted)).decisionBit
      ch r y.lastDistance (s.chan ch).sync.lastDistance := by
  intro y
  have hy : y.framing = true := by
    unfold Synchronizer.framing
    rw [show y.state = (s.chan ch).sync.state from rfl]; rcases hf with h | h <;> rw [h]
  have hh : (s.modSync ch fun _ => y).handBit ch r
      = (s.modSync ch fun _ => y).captureBit ch (r.syncLength - 1 + y.position) (bit != y.inverted) := by
    unfold State.handBit; simp only [chan_modSync]; rw [if_pos hy]; rfl
  unfold State.takeBit; dsimp only
  rw [hp, ← hh]
  rcases hf with h | h <;> rw [h] <;> rfl

/-- R5: a bit taken in CHECK is decided upon. -/
theorem takeBit_check (s : State) (ch : Chan) (bit : Bool) (r : RunProgram)
    (hp : (s.chan ch).prog.settings = some r) (hf : (s.chan ch).sync.state = .check) :
    let y := (s.chan ch).sync.take r bit
    s.takeBit ch bit = (s.modSync ch fun _ => y).decisionBit ch r y.lastDistance (s.chan ch).sync.lastDistance := by
  intro y
  have hh : (s.modSync ch fun _ => y).handBit ch r = s.modSync ch fun _ => y := by
    unfold State.handBit; simp only [chan_modSync]
    rw [if_neg]; unfold Synchronizer.framing
    rw [show y.state = (s.chan ch).sync.state from rfl, hf]; exact Bool.false_ne_true
  unfold State.takeBit; dsimp only
  rw [hp, hf, ← hh]; rfl

/-- A bit at which no decision falls due is taken and nothing else. -/
theorem decisionBit_none (s : State) (ch : Chan) (r : RunProgram) (d early : Option Nat)
    (h : ¬((s.chan ch).sync.heldOpen = none ∧ (s.chan ch).sync.position = r.frameLength
      ∨ (s.chan ch).sync.heldOpen ≠ none ∧ (s.chan ch).sync.position = r.frameLength + 1)) :
    s.decisionBit ch r d early = s := by
  unfold State.decisionBit; dsimp only
  cases ho : (s.chan ch).sync.heldOpen with
  | none => exact if_neg fun e => h (Or.inl ⟨ho, e⟩)
  | some x => exact if_neg fun e => h (Or.inr ⟨by rw [ho]; exact fun e => (nomatch e), e⟩)

/-- R13, R15, R24: a lock lost by misses: the counts and the event, then the truncation, then the status write. -/
theorem syncLost_framing (s : State) (ch : Chan) (h : (s.chan ch).sync.framing = true) :
    ∃ x, s.syncLost ch = (x.truncate ch).request (.statusWrite ch)
      ∧ x.chan ch = { s.chan ch with
          sync := (s.chan ch).sync.toSearch
          stats := { (s.chan ch).stats with
            counters := { (s.chan ch).stats.counters with losses := saturate (s.chan ch).stats.counters.losses 1 } } }
      ∧ s.Reports x [(some ch, .lockLost .misses (s.chan ch).sync.frameNumber)] := by
  unfold State.syncLost; dsimp only; rw [if_pos h]
  unfold State.lockLost
  refine ⟨_, rfl, ?_, ?_⟩
  · rw [hand_chan]; simp [State.count]
  · rw [chan_modSync]
    exact hand_reports ((s.modSync ch (·.toSearch)).count ch fun c => { c with losses := saturate c.losses 1 }) (some ch)
      (.lockLost .misses (s.chan ch).sync.frameNumber)
/-- What taking up a group leaves of the statistics. -/
theorem writebackNext_stats (s : State) (ch : Chan) : ((s.writebackNext ch).chan ch).stats = (s.chan ch).stats := by
  unfold State.writebackNext
  split
  · split
    · unfold State.placeGroup; rw [request_chan, chan_modWb]
    · rw [requestRead_chan, chan_modWb]
  · rfl

/-- R98: a record that closes counts once. -/
theorem closeRecord_counters (s : State) (ch : Chan) (b : Bool) (f : Fill) :
    ((s.closeRecord ch b f).chan ch).stats.counters = { (s.chan ch).stats.counters with
      framesCaptured := saturate (s.chan ch).stats.counters.framesCaptured 1 } := by
  unfold State.closeRecord; rw [writebackNext_stats, chan_count, chan_modCapture]

/-- R16: what a frame begun leaves of its channel. -/
theorem frameBegun_chan (s : State) (ch : Chan) (k : FrameStart) :
    (s.frameBegun ch k).chan ch = { s.chan ch with
      sync := (s.chan ch).sync.begin k
      stats := { (s.chan ch).stats with counters := ((s.chan ch).stats.counters.accepted k).framed k }
      capture := if k.kind = .first then { (s.chan ch).capture with phase := 0 } else (s.chan ch).capture } := by
  unfold State.frameBegun; dsimp only
  split
  · split
    · unfold State.lockAcquired State.restartPhase; rw [hand_chan, chan_modCapture, chan_count, chan_modSync]
    · rw [chan_count, chan_modSync]
  · rw [statusChanged_chan]; split
    · unfold State.lockAcquired State.restartPhase; rw [hand_chan, chan_modCapture, chan_count, chan_modSync]
    · rw [chan_count, chan_modSync]

/-- What a refused or accepted release leaves of its channel outside the Writeback Unit. -/
theorem offerRelease_units (s : State) (ch : Chan) (v : Word) :
    ((s.offerRelease ch v).chan ch).capture = (s.chan ch).capture
      ∧ ((s.offerRelease ch v).chan ch).prog = (s.chan ch).prog
      ∧ ((s.offerRelease ch v).chan ch).wb.placement = (s.chan ch).wb.placement
      ∧ ((s.offerRelease ch v).chan ch).wb.spell = (s.chan ch).wb.spell := by
  unfold State.offerRelease; dsimp only; split
  · exact ⟨rfl, rfl, rfl, rfl⟩
  · split
    · split
      · rw [chan_modWb]; exact ⟨rfl, rfl, rfl, rfl⟩
      · rw [request_chan, chan_modWb]; exact ⟨rfl, rfl, rfl, rfl⟩
    · split
      · exact ⟨rfl, rfl, rfl, rfl⟩
      · rw [hand_chan]; simp

end Sys2Proof.Machine
end

