-- ==== Sys2Proof/Laws/Faulted.lean ====
section
/-! SUPPORT. A FAULTED device stays as it is until a reset. -/

namespace Sys2Proof.Machine

variable {s t u : State} {ch : Chan}

/-- A change that changes no channel changes nothing. -/
theorem PerChannel.map_same {α : Type} {f : α → α} {p : PerChannel α} (h : ∀ ch, f (p.get ch) = p.get ch) :
    p.map f = p := by
  rcases p with ⟨c0, c1, c2, c3, c4, c5, c6, c7⟩
  have h0 := h .ch0; have h1 := h .ch1; have h2 := h .ch2; have h3 := h .ch3
  have h4 := h .ch4; have h5 := h .ch5; have h6 := h .ch6; have h7 := h .ch7
  unfold PerChannel.get at *
  dsimp only at *
  unfold PerChannel.map; dsimp only
  rw [h0, h1, h2, h3, h4, h5, h6, h7]

/-- Ticks find nothing to count or to expire. -/
theorem State.Still.tick (k : s.Still) : s.tick = { s with timebase := saturate s.timebase 1 } := by
  have hch : s.chans.map Channel.tick = s.chans := by
    refine PerChannel.map_same fun ch => ?_
    have he := (k.channels ch).1
    have hw := (k.channels ch).2
    unfold State.chan at he hw
    generalize s.chans.get ch = c at he hw
    rcases c with ⟨_, _, _, _, w, _⟩
    rcases w
    dsimp only at he hw; subst hw
    unfold Channel.tick Monitor.tick; dsimp only
    rw [he]; rfl
  have hct : s.countTick = { s with timebase := saturate s.timebase 1 } := by
    unfold State.countTick
    rw [hch, k.holdoff, k.idlePoll, k.timer]
    have h1 := k.holdoff; have h2 := k.idlePoll; have h3 := k.timer
    rcases s with ⟨_, _, _, _, _, _, _, _, _, _, e, _, q, _, _, _⟩
    rcases e; rcases q
    dsimp only at h1 h2 h3; subst h1; subst h2; subst h3; rfl
  have hf : ∀ (u : State) (f : Chan → State → State), (∀ ch, f ch u = u) → u.forChans f = u := by
    intro u f h
    unfold State.forChans
    have : ∀ l : List Chan, l.foldl (fun t c => f c t) u = u := by
      intro l; induction l with
      | nil => rfl
      | cons c l ih => rw [List.foldl_cons, h c, ih]
    exact this _
  have hx : ∀ u : State, u.chans = s.chans → u.events = s.events → u.idlePoll = s.idlePoll → u.port = s.port →
      u.expire = u := by
    intro u h1 h2 h3 h4
    unfold State.expire; dsimp only
    rw [hf u _ fun ch => by
      rw [if_neg]; unfold Channel.gapReached State.chan
      rw [h1, show (s.chans.get ch).monitor.evaluating = false from (k.channels ch).1]; simp]
    rw [hf u _ fun ch => by
      rw [if_neg]; unfold State.chan
      rw [h1, show (s.chans.get ch).wb.holdoff = none from (k.channels ch).2]; exact Bool.false_ne_true]
    unfold State.idlePollReached State.responseReached State.holdoffReached
    rw [h2, h3, h4, k.holdoff, k.idlePoll, k.timer]; rfl
  unfold State.tick
  rw [hct, hx { s with timebase := saturate s.timebase 1 } rfl rfl rfl rfl]
  exact arbitrate_of_granted _ k.granted k.arrived

/-- A later state of a FAULTED device differs in its timebase and its registers only, unless a reset has made it DORMANT. -/
def State.StaysFaulted (s t : State) : Prop := t.device = .dormant ∨ t = { s with timebase := t.timebase, regs := t.regs }

/-- No request arrives and nothing is granted. -/
theorem State.Still.same (k : s.Still) (u : State) (h : u.port = s.port) : u.arbitrate = u := by
  exact arbitrate_of_granted u (by rw [h]; exact k.granted) (by rw [h]; exact k.arrived)

/-- A change of registers and timebase is all that is left of a command. -/
theorem State.Still.quiet (k : s.Still) (u : State) (h : u = { s with timebase := u.timebase, regs := u.regs }) :
    s.StaysFaulted u.arbitrate := by
  rw [k.same u (by rw [h])]; exact Or.inr h

/-- R186: CTRL.RUN is stored and not followed. -/
theorem State.Still.followRun (k : s.Still) (a i : Bool) : s.StaysFaulted (s.writeCtrl a i).arbitrate := by
  have hw : s.writeCtrl a i = s.setCtrl a i := by
    unfold State.writeCtrl State.followRun
    rw [show (s.setCtrl a i).device = .faulted from k.device]
  rw [hw]; exact k.quiet _ rfl

/-- R197: a NUDGE write is discarded. -/
theorem State.Still.nudge (k : s.Still) (c : Byte) (j t i : Bool) : s.nudge c j t i = s := by
  unfold State.nudge; dsimp only; rw [k.device, if_neg (by decide)]

/-- A write of a register of a FAULTED device. -/
theorem State.Still.writeRegister (k : s.Still) (r : Register) (v : Word) :
    s.StaysFaulted (s.writeRegister r v).arbitrate := by
  cases r
  case ctrl =>
    show s.StaysFaulted (s.writeCtrlWord v).arbitrate
    unfold State.writeCtrlWord; split
    · refine Or.inl ?_; rw [arbitrate_device]; rfl
    · exact k.followRun _ _
  case nudge =>
    show s.StaysFaulted (s.nudge _ _ _ _).arbitrate
    rw [k.nudge]; exact k.quiet _ rfl
  case cpbaseLo =>
    show s.StaysFaulted (s.writeCpbaseLo v).arbitrate
    unfold State.writeCpbaseLo; split <;> exact k.quiet _ rfl
  case cpbaseHi =>
    show s.StaysFaulted (s.writeCpbaseHi v).arbitrate
    unfold State.writeCpbaseHi; split <;> exact k.quiet _ rfl
  all_goals exact k.quiet _ rfl

/-- R70, R193: a FAULTED device that is still changes in nothing but its timebase and its registers, until a reset. -/
theorem still_exec (k : s.Still) (c : Instr) : ∃ t, exec c s = .next t ∧ s.StaysFaulted t := by
  have same : s.StaysFaulted s := Or.inr rfl
  have hlive : ∀ {c : Instr} {f : State → State}, exec c s = s.live f → s.StaysFaulted (f s) →
      ∃ t, exec c s = .next t ∧ s.StaysFaulted t := by
    intro c f he h
    cases hl : s.resetHeld with
    | true => exact ⟨s, he.trans (live_held f hl), same⟩
    | false => exact ⟨f s, he.trans (live_next f hl), h⟩
  have hr : ∀ q r, s.respond q r = .next s := by
    intro q r; unfold State.respond; rw [k.inFlight]
  have hb : ∀ ch bit, s.lineBit ch bit = s := by
    intro ch bit; unfold State.lineBit State.bitClock; dsimp only
    rw [(k.channels ch).1, if_neg Bool.false_ne_true, k.same s rfl, ite_self]
  have ht : s.testBitClock.arbitrate = s := by
    have : s.testBitClock = s := by unfold State.testBitClock State.emitting; rw [k.device]; rfl
    rw [this]; exact k.same s rfl
  cases c
  case fullReset phase => exact ⟨_, rfl, Or.inl rfl⟩
  case softReset r i => exact hlive (exec_softReset s r i) (Or.inl rfl)
  case ctrlRun b => exact hlive (exec_ctrlRun s b) (k.followRun _ _)
  case ctrlIrqen b => exact hlive (exec_ctrlIrqen s b) (k.followRun _ _)
  case registerWrite o l v =>
    refine hlive (exec_registerWrite s o l v) ?_
    unfold State.writeWindow; split
    · exact k.quiet _ rfl
    · exact k.writeRegister _ v
  case irqPendWrite v => exact hlive (exec_irqPendWrite s v) (Or.inr rfl)
  case irqMaskWrite v => exact hlive (exec_irqMaskWrite s v) (Or.inr rfl)
  case nudgeSlotSample c => exact hlive (exec_nudgeSlotSample s c) (by rw [k.nudge]; exact k.quiet _ rfl)
  case nudgeJournalReread => exact hlive (exec_nudgeJournalReread s) (by rw [k.nudge]; exact k.quiet _ rfl)
  case nudgeTestSample => exact hlive (exec_nudgeTestSample s) (by rw [k.nudge]; exact k.quiet _ rfl)
  case nudgeTestInject => exact hlive (exec_nudgeTestInject s) (by rw [k.nudge]; exact same)
  case strtRisingEdge =>
    refine hlive (exec_strtRisingEdge s) ?_
    unfold State.strtEdge; rw [if_neg (by rw [k.device]; decide)]; exact k.quiet _ rfl
  case bitClock ch b => exact hlive (exec_bitClock s ch b) (by rw [hb]; exact same)
  case checkDecision ch b => exact hlive (exec_checkDecision s ch b) (by rw [hb, ite_self]; exact same)
  case lockDecision ch b => exact hlive (exec_lockDecision s ch b) (by rw [hb, ite_self]; exact same)
  case latePositionDecision ch b => exact hlive (exec_latePositionDecision s ch b) (by rw [hb, ite_self]; exact same)
  case quietEntry ch b => exact hlive (exec_quietEntry s ch b) (by rw [hb, ite_self]; exact same)
  case activeEntry ch b => exact hlive (exec_activeEntry s ch b) (by rw [hb, ite_self]; exact same)
  case quietWindowEnd ch b => exact hlive (exec_quietWindowEnd s ch b) (by rw [hb, ite_self]; exact same)
  case noclockRecovery ch b => exact hlive (exec_noclockRecovery s ch b) (by rw [hb, ite_self]; exact same)
  case gapTimerExpiry ch =>
    exact hlive (exec_gapTimerExpiry s ch) (by unfold Channel.gapRunning; rw [(k.channels ch).1]; exact same)
  case idlePollExpiry => exact hlive (exec_idlePollExpiry s) (by rw [k.idlePoll]; exact same)
  case captureHoldoffExpiry ch => exact hlive (exec_captureHoldoffExpiry s ch) (by rw [(k.channels ch).2]; exact same)
  case journalHoldoffExpiry => exact hlive (exec_journalHoldoffExpiry s) (by rw [k.holdoff]; exact same)
  case responseTimeout => exact hlive (exec_responseTimeout s) (by unfold State.timeOut; rw [k.inFlight]; exact same)
  case lateResponse r => exact ⟨s, rfl, same⟩
  case programTorn ch r =>
    refine ⟨s, ?_, same⟩
    show (if s.tornDue ch r then s.respond (.fetchTail ch) r else .next s) = _
    rw [hr, ite_self]
  case testSourceBitClock => exact hlive (exec_testSourceBitClock s) (by rw [ht]; exact same)
  case testFrameStart => exact hlive (exec_testFrameStart s) (by rw [ht, ite_self]; exact same)
  case rateErrorInsertion => exact hlive (exec_rateErrorInsertion s) (by rw [ht, ite_self]; exact same)
  case syncCorruption => exact hlive (exec_syncCorruption s) (by rw [ht, ite_self]; exact same)
  case drainEnd => exact hlive (exec_drainEnd s) (by rw [if_neg (by rw [k.device]; exact fun h => by cases h.1)]; exact same)
  case writebackSettled ch =>
    exact hlive (exec_writebackSettled s ch) (by unfold State.heldRunDue; rw [k.device]; exact same)
  case timebaseTick => exact hlive (exec_timebaseTick s) (by rw [k.tick]; exact Or.inr rfl)
  all_goals exact ⟨s, hr _ _, same⟩

end Sys2Proof.Machine
end

