-- ==== Sys2Proof/Laws/Formats.lean ====
section
/-! SUPPORT. Fields laid out as bytes are read back, and a field is found behind the bytes before it. -/

namespace Sys2Proof.Machine

theorem bytesOf_length (size value : Nat) : (bytesOf size value).length = size := by
  induction size generalizing value with
  | zero => rfl
  | succ n ih => simp [bytesOf, ih]

theorem wordAt_bytesOf (value : Nat) (l : List Byte) : wordAt (bytesOf 4 value ++ l) 0 = BitVec.ofNat 32 value := by
  apply BitVec.eq_of_toNat_eq
  simp [wordAt, fieldAt, byteAt, bytesOf]; omega

theorem halfAt_bytesOf (value : Nat) (l : List Byte) : halfAt (bytesOf 2 value ++ l) 0 = BitVec.ofNat 16 value := by
  apply BitVec.eq_of_toNat_eq
  simp [halfAt, fieldAt, byteAt, bytesOf]; omega

theorem dwordAt_bytesOf (value : Nat) (l : List Byte) : dwordAt (bytesOf 8 value ++ l) 0 = BitVec.ofNat 64 value := by
  apply BitVec.eq_of_toNat_eq
  simp [dwordAt, fieldAt, byteAt, bytesOf]; omega

theorem byteAt_append (p l : List Byte) (k : Nat) : byteAt (p ++ l) (p.length + k) = byteAt l k := by
  unfold byteAt; simp [List.getElem?_append_right]

theorem fieldAt_append (p l : List Byte) (k n : Nat) : fieldAt (p ++ l) (p.length + k) n = fieldAt l k n := by
  induction n generalizing k with
  | zero => rfl
  | succ n ih => unfold fieldAt; rw [byteAt_append, Nat.add_assoc, ih]

theorem wordAt_append (p l : List Byte) (k : Nat) (h : p.length = k) : wordAt (p ++ l) k = wordAt l 0 := by
  subst h; unfold wordAt; rw [← fieldAt_append p l 0]; rfl

theorem halfAt_append (p l : List Byte) (k : Nat) (h : p.length = k) : halfAt (p ++ l) k = halfAt l 0 := by
  subst h; unfold halfAt; rw [← fieldAt_append p l 0]; rfl

theorem dwordAt_append (p l : List Byte) (k : Nat) (h : p.length = k) : dwordAt (p ++ l) k = dwordAt l 0 := by
  subst h; unfold dwordAt; rw [← fieldAt_append p l 0]; rfl

end Sys2Proof.Machine
end

