-- ==== Sys2Proof/WellFormed.lean ====
section
/-! DEFINITION. Which commands the outside world can send: each check here is one condition the spec's own words put on a
command's operands. -/

namespace Sys2Proof

/-- A read that completes with OKAY hands over exactly the bytes asked for (R174, R180). -/
def ReadResponse.carries (n : Nat) : ReadResponse → Bool
  | .okay bytes => bytes.length == n
  | .error => true

/-- The second read of a fetch is 8 to 72 bytes long, in whole windows (R77). -/
def ReadResponse.carriesTail : ReadResponse → Bool
  | .okay bytes => (1 ≤ bytes.length / 8) && (bytes.length / 8 ≤ 9) && (bytes.length % 8 == 0)
  | .error => true

/-- A response that brings bytes at all. -/
def ReadResponse.isOkay : ReadResponse → Bool
  | .okay _ => true
  | .error => false

/-- Well-formedness of a command. -/
def Instr.wellFormed : Instr → Bool
  | .fullReset _ => true
  | .softReset _ _ => true
  | .ctrlRun _ => true
  | .ctrlIrqen _ => true
  | .registerWrite offset lanes _ => offset < 0x20 && lanes != 0
  | .irqPendWrite _ => true
  | .irqMaskWrite _ => true
  | .nudgeSlotSample channels => channels != 0
  | .nudgeJournalReread => true
  | .nudgeTestSample => true
  | .nudgeTestInject => true
  | .strtRisingEdge => true
  | .bitClock _ _ => true
  | .checkDecision _ _ => true
  | .lockDecision _ _ => true
  | .latePositionDecision _ _ => true
  | .quietEntry _ _ => true
  | .activeEntry _ _ => true
  | .quietWindowEnd _ _ => true
  | .noclockRecovery _ _ => true
  | .gapTimerExpiry _ => true
  | .idlePollExpiry => true
  | .captureHoldoffExpiry _ => true
  | .journalHoldoffExpiry => true
  | .responseTimeout => true
  | .lateResponse _ => true
  | .headerReadComplete r => r.carries 256
  | .mirrorWriteComplete _ => true
  | .slotReadComplete _ r => r.carries 32
  | .programFetchFixedComplete _ r => r.carries 48
  | .programFetchTailComplete _ r => r.carriesTail
  | .programTorn _ r => r.isOkay && r.carriesTail
  | .generationWriteComplete _ _ => true
  | .statusWriteComplete _ _ => true
  | .reReadComplete _ r => r.carries 4
  | .recordBurstComplete _ _ => true
  | .markWriteComplete _ _ => true
  | .journalRecordWriteComplete _ => true
  | .journalReReadComplete r => r.carries 4
  | .journalMarkWriteComplete _ => true
  | .blockWriteComplete _ _ => true
  | .servedWriteComplete _ _ => true
  | .testSampleReadComplete r => r.carries 12
  | .blockFetchComplete r => r.carries 40
  | .testStatusWriteComplete _ => true
  | .testSourceBitClock => true
  | .testFrameStart => true
  | .rateErrorInsertion => true
  | .syncCorruption => true
  | .drainEnd => true
  | .writebackSettled _ => true
  | .timebaseTick => true

end Sys2Proof
end

