-- ==== Sys2Proof/Tests/Slice0.lean ====
section
/-! SUPPORT. Small tests: ill-formed commands, single operations on fixed values, and for every statement of Obligations.lean
states that meet its hypotheses. -/

namespace Sys2Proof.Tests

open Sys2Proof.Machine

/-! ## Ill-formed commands -/

theorem test_illFormed_lanes : (Instr.registerWrite 4 0 0).wellFormed = false := by decide

theorem test_wellFormed_misaligned : (Instr.registerWrite 6 0xF 0).wellFormed = true := by decide

theorem test_illFormed_offset : (Instr.registerWrite 0x22 0xF 0).wellFormed = false := by decide

theorem test_illFormed_window : (Instr.registerWrite 0x20 0xF 0).wellFormed = false := by decide

theorem test_illFormed_nudge : (Instr.nudgeSlotSample 0).wellFormed = false := by decide

theorem test_illFormed_header : (Instr.headerReadComplete (.okay [])).wellFormed = false := by decide

theorem test_illFormed_slot : (Instr.slotReadComplete .ch0 (.okay [1])).wellFormed = false := by decide

theorem test_illFormed_fixed : (Instr.programFetchFixedComplete .ch0 (.okay [1])).wellFormed = false := by decide

theorem test_illFormed_tail : (Instr.programFetchTailComplete .ch0 (.okay (List.replicate 12 0))).wellFormed = false := by
  decide

theorem test_illFormed_tail_short : (Instr.programFetchTailComplete .ch0 (.okay [])).wellFormed = false := by decide

theorem test_illFormed_tail_long :
    (Instr.programFetchTailComplete .ch0 (.okay (List.replicate 80 0))).wellFormed = false := by decide

theorem test_illFormed_torn : (Instr.programTorn .ch0 .error).wellFormed = false := by decide

theorem test_illFormed_torn_bytes : (Instr.programTorn .ch0 (.okay [1])).wellFormed = false := by decide

theorem test_illFormed_reRead : (Instr.reReadComplete .ch0 (.okay [1, 2, 3])).wellFormed = false := by decide

theorem test_illFormed_journalReRead : (Instr.journalReReadComplete (.okay [])).wellFormed = false := by decide

theorem test_illFormed_testSample : (Instr.testSampleReadComplete (.okay [])).wellFormed = false := by decide

theorem test_illFormed_block : (Instr.blockFetchComplete (.okay [])).wellFormed = false := by decide

theorem test_wellFormed_reRead : (Instr.reReadComplete .ch0 (.okay [1, 2, 3, 4])).wellFormed = true := by decide

/-! ## Single operations on fixed values -/

/-- R104: the check value of this CRC, that of the nine bytes 31 to 39. -/
theorem test_crc : ~~~(crcBytes crcStart [0x31, 0x32, 0x33, 0x34, 0x35, 0x36, 0x37, 0x38, 0x39]) = 0xCBF43926 := by
  decide +kernel

/-- R102: the first bit received is the most significant of its byte, and a window's last byte is filled with zeros. -/
theorem test_packBits :
    packBits [true, false, false, false, false, false, false, true, true, true] = [0x81, 0xC0] := by decide

theorem test_fieldAt : wordAt [0xFF, 0x78, 0x56, 0x34, 0x12] 1 = 0x12345678 := by decide

theorem test_bytesOf : bytesOf 4 0x12345678 = [0x78, 0x56, 0x34, 0x12] := by decide

/-- R207: a PAD of four bytes is written short. -/
theorem test_padBytes : padBytes 4 = [3, 0, 4, 0] := by decide

theorem test_saturate : saturate (0xFFFE : Half) 3 = 0xFFFF := by decide

theorem test_readId : State.reset.readRegister .id = 0x1C4A0F81 := by decide

/-- R196: a read of two bytes at offset 2 returns the upper half of ID, one beyond the window nothing. -/
theorem test_readBytes : State.reset.readBytes 2 2 = [0x4A, 0x1C] ∧ State.reset.readBytes 0x20 4 = [] := by decide

/-- R178: CH3 has the pointer, CH1 waits and CH6 waits: CH6 is granted. -/
theorem test_roundRobin :
    ({ Port.reset with roundRobin := .ch3, classC := ((PerChannel.all false).set .ch1 true).set .ch6 true } : Port
      ).classCChoice = some .ch6 := by decide

/-- R17: the bits of a frame begun with the position counter at 2, bit 0 the oldest; the first two come from the spill bits. -/
theorem test_frameBits :
    ({ Synchronizer.reset with history := [true, false, false], spill := [true, true] } : Synchronizer).frameBits 3 2
      = [true, true, false, false, true] := by decide

/-- R16: the attributes of a flywheel frame, the first of its run. -/
theorem test_frame :
    Synchronizer.reset.frame ⟨.flywheel, 1, 8⟩ 9 = ⟨0, true, false, false, false, 8, 9, false⟩ := by decide

theorem test_lfsrStep : lfsrStep 7 6 0x40 = 0x01 := by decide

/-- R169: the all-zero register feeds back a 1. -/
theorem test_lfsr_zero : lfsrStep 7 6 0 = 1 := by decide

/-! ## States for the witnesses -/

/-- The invariant, as a check. -/
def invCheck (s : State) : Bool :=
  Memory.wf s.mem && decide (s.events.queue.length ≤ 16) && decide (s.port.guard ≤ 8)
    && s.port.classA.all (·.classOf == .a) && s.port.classB.all (·.classOf == .b)
    && s.port.inFlight.all (fun t => t.request.isWrite || t.data.isEmpty)
    && (s.device == .faulted || (s.faultCode == .none && s.frozen == .none))
    && (s.regs.cpbaseLo &&& 0xFFF == 0 && s.regs.cpbaseHi &&& 0xFFFF0000 == 0)
    && allChans.all (fun ch => decide (s.chan ch).capture.buffers.Nodup)
    && (match s.device with
      | .dormant | .stopped => !s.regs.run
      | .running => s.regs.run
      | .starting | .draining | .faulted => true)
    && (s.port.inFlight.isSome || s.port.choice.isNone) && s.port.arrivals.isEmpty

theorem inv_of_check {s : State} (h : invCheck s = true) : s.Inv := by
  unfold invCheck at h
  simp only [Bool.and_eq_true, decide_eq_true_eq, List.all_eq_true, beq_iff_eq, Bool.or_eq_true, Option.all_eq_true,
    List.isEmpty_iff, Option.isSome_iff_ne_none, Option.isNone_iff_eq_none] at h
  obtain ⟨⟨⟨⟨⟨⟨⟨⟨⟨⟨⟨h1, h2⟩, h3⟩, h4⟩, h5⟩, h6⟩, h7⟩, h8⟩, h9⟩, h10⟩, h11⟩, h12⟩ := h
  refine ⟨⟨⟨h1, h2, h3, ⟨h4, h5⟩, ?_, fun t ht => (by rw [h12] at ht; cases ht), h7, h8, ?_⟩, ?_⟩, h11, h12⟩
  · intro t ht hw
    rcases h6 t ht with h | h
    · rw [hw] at h; cases h
    · exact h
  · intro ch; exact h9 ch (by cases ch <;> decide)
  · unfold State.Followed
    cases hd : s.device <;> simp_all

/-- A session in RUNNING with nothing going on. -/
def up : State :=
  { State.reset with
    device := .running
    sessionBase := 0x10000
    params := ⟨10, 4, 100, 0x40000, 4096, false⟩
    idlePoll := some 0
    regs := { Registers.reset with run := true } }

/-- A RUN program: sync pattern 0x1D in 8 bits, frames of 16 bits, one window of 8 bits. -/
def program : RunProgram where
  generation := 1
  cut := false
  startOnStrt := false
  keepFlywheel := false
  autoPolarity := true
  invert := false
  inputTest := false
  windowCount := 1
  syncLength := 8
  syncPattern := 0x1D
  syncMask := 0xFF
  frameLength := 16
  searchTol := 0
  checkTol := 1
  lockTol := 1
  checkCount := 2
  flywheelLimit := 1
  slipWindow := 0
  decimation := 0
  clockTimeoutUs := 255
  captureNotifyBytes := 64
  windows := [⟨8, 8⟩]

/-- A channel RUNNING under a program, with this synchronizer and this monitor. -/
def runningChannel (r : RunProgram) (y : Synchronizer) (m : Monitor) : Channel :=
  { Channel.reset with
    prog :=
      { ProgramUnit.reset with
        runState := .running
        inForce := some (.run r)
        settings := some r
        runIndex := 1
        area := some ⟨0x80000, 16384⟩ }
    sync := y
    monitor := m }

/-- A monitor that evaluates. -/
def heard (a : ActivityState) : Monitor :=
  { Monitor.reset with state := a, evaluating := true, lastBit := some false, gap := some 0 }

/-- A synchronizer that has taken all but the last bit of the sync pattern. -/
def synced (state : SyncState) (position : Nat) : Synchronizer :=
  { Synchronizer.reset with
    state := state
    position := position
    history := [false, true, true, true, false, false, false] }

/-- `s` with this data in CH0. -/
def with0 (s : State) (c : Channel) : State := { s with chans := s.chans.set .ch0 c }

/-- `s` with a request's transaction in flight. -/
def flight (s : State) (r : Request) : State :=
  { s with port := { s.port with inFlight := some (s.transaction r), timer := some 0 } }

theorem flight_answering (s : State) (r : Request) (h : s.resetHeld = false) :
    (flight s r).Answering r (s.transaction r) := ⟨h, rfl, transaction_request s r, transaction_expected s r⟩

/-- CH0 listens to its pins, under a program, and its bits are delivered. -/
abbrev Delivered (s : State) (r : RunProgram) : Prop :=
  s.resetHeld = false ∧ (s.chan .ch0).prog.input = .line ∧ (s.chan .ch0).monitor.evaluating = true
    ∧ (s.chan .ch0).monitor.state ≠ .noclock ∧ (s.chan .ch0).prog.settings = some r

/-! ## States that meet the hypotheses of the statements -/

theorem test_StepRunsFront :
    ({ up with pending := [.timebaseTick] } : State).pending = .timebaseTick :: [] ∧ up.pending = [] := by decide

theorem test_CommandsComplete_next : ∃ t, exec .strtRisingEdge up = .next t := ⟨_, rfl⟩

theorem test_CommandsComplete :
    exec (.headerReadComplete (.okay [])) (flight up .headerRead) = .fault .malformedResponse := rfl

theorem test_Resets_held :
    ({ up with resetHeld := true } : State).resetHeld = true ∧ ∀ phase, Instr.timebaseTick ≠ .fullReset phase :=
  ⟨rfl, fun _ => Instr.noConfusion⟩

theorem test_StepKeepsInv : up.Inv ∧ ∃ t, step up = .next t := ⟨inv_of_check (by decide), _, rfl⟩

theorem test_Resets :
    up.resetHeld = false ∧ up.port.inFlight = none
      ∧ (flight up .mirrorWrite).port.inFlight = some (up.transaction .mirrorWrite)
      ∧ (∀ i, i < (up.transaction .mirrorWrite).data.length →
        busAddress ((up.transaction .mirrorWrite).address + i) ≠ 0x1005C) := by decide

/-! ### Registers -/

theorem test_CtrlStored :
    up.Inv ∧ up.resetHeld = false ∧ up.regs.run = true ∧ ({ up with device := .starting } : State).Inv
      ∧ ({ up with device := .draining } : State).Inv ∧ ({ up with device := .faulted } : State).Inv :=
  ⟨inv_of_check (by decide), rfl, rfl, inv_of_check (by decide), inv_of_check (by decide), inv_of_check (by decide)⟩

theorem test_CtrlRunStarts :
    State.reset.resetHeld = false ∧ State.reset.device = .dormant
      ∧ ({ State.reset with device := .stopped } : State).device = .stopped ∧ State.reset.port.inFlight = none
      ∧ (flight State.reset .mirrorWrite).port.inFlight = some (State.reset.transaction .mirrorWrite) := by decide

/-- CH0 runs, CH1 is ARMED, CH2 is IDLE. -/
def mixed : State :=
  { with0 up (runningChannel program (synced .lock 3) (heard .active)) with
    test := { TestSource.reset with state := .running } }.modProg .ch1 fun p => { p with runState := .armed }

theorem test_CtrlRunDrains :
    mixed.Inv ∧ mixed.resetHeld = false ∧ mixed.device = .running ∧ mixed.events.queue.length < 16
      ∧ (mixed.chan .ch0).prog.runState = .running ∧ (mixed.chan .ch1).prog.runState = .armed
      ∧ ¬((mixed.chan .ch2).prog.runState = .armed ∨ (mixed.chan .ch2).prog.runState = .running) :=
  ⟨inv_of_check (by decide), by decide⟩

theorem test_RegisterWrite :
    up.Inv ∧ State.reset.Inv ∧ (7 : BitVec 4) ≠ 0xF ∧ ({ up with device := .starting } : State).Inv
      ∧ ({ up with device := .draining } : State).Inv ∧ ({ State.reset with device := .stopped } : State).Inv
      ∧ ({ State.reset with device := .faulted } : State).Inv ∧ (6 : Word).getLsbD 1 = true
      ∧ (5 : Word).getLsbD 1 = false ∧ (5 : Word).getLsbD 2 = !up.regs.irqen ∧ (1 : Word).getLsbD 2 = up.regs.irqen
      ∧ (1 : Word).getLsbD 1 = false ∧ (5 : Word).getLsbD 0 = up.regs.run ∧ (0xFF : Word).toNat < 256
      ∧ up.resetHeld = false ∧ up.device = .running ∧ (0x7FF : Word).getLsbD 10 = true ∧ 6 % 4 ≠ 0 :=
  ⟨inv_of_check (by decide), inv_of_check (by decide), by decide, inv_of_check (by decide), inv_of_check (by decide),
    inv_of_check (by decide), inv_of_check (by decide), by decide⟩

/-- The line is low for the last source, and released when it is masked. -/
theorem test_IrqLine :
    ({ up with regs := { up.regs with irqen := true, irqPend := 0x400 } } : State).irqLow = true
      ∧ ({ up with regs := { up.regs with irqen := true, irqPend := 0x400, irqMask := 0x400 } } : State).irqLow = false := by
  decide

theorem test_Nudge_outside : State.reset.Inv ∧ State.reset.device ≠ .running := ⟨inv_of_check (by decide), by decide⟩

theorem test_Nudge : up.Inv ∧ up.resetHeld = false ∧ up.device = .running := ⟨inv_of_check (by decide), by decide⟩

theorem test_StrtEdge :
    mixed.resetHeld = false ∧ mixed.device = .running ∧ mixed.events.queue.length < 16
      ∧ (mixed.chan .ch1).prog.runState = .armed ∧ (mixed.chan .ch0).prog.runState ≠ .armed
      ∧ mixed.events.queue.length + 1 + (allChans.filter fun ch => (mixed.chan ch).prog.runState = .armed).length ≤ 16 := by
  decide

theorem test_PollAndHoldoffExpiries :
    up.Inv ∧ up.resetHeld = false ∧ up.idlePoll = some 0
      ∧ ((with0 up { Channel.reset with wb := { Writeback.reset with holdoff := some 0 } }).chan .ch0).wb.holdoff = some 0
      ∧ ({ up with events := { up.events with holdoff := some 0 } } : State).events.holdoff = some 0 :=
  ⟨inv_of_check (by decide), by decide⟩

/-! ### Bit clocks and activity -/

/-- CH0 with this monitor, in SEARCH. -/
def monitored (m : Monitor) : State := with0 up (runningChannel program (synced .search 0) m)

theorem test_BitClockCounted_unheard :
    up.Inv ∧ (up.chan .ch0).monitor.evaluating = false
      ∧ (monitored (heard .active)).Inv
      ∧ (with0 up (runningChannel { program with inputTest := true } (synced .search 0) (heard .active))).Inv
      ∧ ((with0 up (runningChannel { program with inputTest := true } (synced .search 0) (heard .active))).chan .ch0
          ).prog.input = .test :=
  ⟨inv_of_check (by decide), by decide, inv_of_check (by decide), inv_of_check (by decide), by decide⟩

theorem test_BitClockCounted :
    Delivered (monitored { heard .active with quietRun := 4094 }) program
      ∧ (heard .active).lastBit = some (!true) ∧ (heard .active).lastBit ≠ some (!false)
      ∧ ({ heard .active with quietRun := 4094 } : Monitor).quietRun + 1 ≠ 4096
      ∧ ({ heard .quiet with windowTransitions := 62, windowPosition := 510 } : Monitor).windowTransitions + 1 ≠ 64
      ∧ ({ heard .quiet with windowTransitions := 62, windowPosition := 510 } : Monitor).windowPosition + 1 ≠ 512
      ∧ ((monitored { heard .noclock with gap := some 2550, recovery := 254 }).chan .ch0).prog.timeoutTicks = 2550
      ∧ ((monitored { heard .noclock with gap := some 2551, recovery := 254 }).chan .ch0).prog.timeoutTicks < 2551 := by
  decide

/-- A synchronizer in OFF; one in CHECK and in LOCK between decisions, and one with a decision held open before its exact position. -/
theorem test_BitClockCounted_taken :
    (synced .off 0).state = .off ∧ (synced .check 3).heldOpen = none ∧ (synced .check 3).position + 1 ≠ program.frameLength
      ∧ (synced .lock 14).position + 1 ≠ program.frameLength ∧ (synced .lock 14).heldOpen = none
      ∧ ((monitored (heard .active)).chan .ch0).prog.settings = some program := by decide

theorem test_QuietEntry :
    Delivered (monitored { heard .active with quietRun := 4095 }) program ∧ (heard .active).lastBit ≠ some (!false)
      ∧ ((monitored { heard .noclock with gap := some 2550, recovery := 255 }).chan .ch0).monitor.recovery = 255
      ∧ 2550 ≤ ((monitored { heard .noclock with gap := some 2550, recovery := 255 }).chan .ch0).prog.timeoutTicks := by
  decide

theorem test_QuietWindow :
    Delivered (monitored { heard .quiet with windowTransitions := 63 }) program
      ∧ (heard .quiet).lastBit = some (!true)
      ∧ Delivered (monitored { heard .quiet with windowTransitions := 62, windowPosition := 511 }) program
      ∧ 62 + (if (heard .quiet).lastBit = some (!true) then 1 else 0) < 64 := by decide

theorem test_GapTimerExpiry :
    Delivered (monitored (heard .quiet)) program ∧ (synced .off 0).state = .off ∧ (synced .search 0).state = .search
      ∧ (synced .flywheel 0).state = .flywheel := by decide

/-! ### The Frame Synchronizer -/

theorem test_SynchronizerSteps :
    (List.replicate 64 true) = List.replicate 63 true ++ [true]
      ∧ ((synced .search 0).take program true).lastDistance = some 0
      ∧ ((synced .search 0).take program false).lastDistance = some 1
      ∧ (Synchronizer.reset.take program true).lastDistance = none := by decide

/-- With every frame number used up. -/
def spent (y : Synchronizer) : Synchronizer := { y with exhausted := true }

/-- The complement of the sync pattern. -/
def upsideDown : Synchronizer := { synced .search 0 with history := [true, false, false, false, true, true, true] }

theorem test_SearchBit :
    Delivered (monitored (heard .active)) program
      ∧ within ((synced .search 0).take program true).lastDistance program.searchTol = true
      ∧ within ((synced .search 0).take program false).lastDistance program.searchTol = false
      ∧ within (upsideDown.take program false).lastDistance program.searchTol = false
      ∧ within (complementDistance program (upsideDown.take program false).lastDistance) program.searchTol = true
      ∧ (monitored (heard .active) |>.chan .ch0).sync.state = .search
      ∧ ((spent (synced .search 0)).take program true).exhausted = true := by
  decide

/-- CH0 one bit before the exact position of a frame, under a program. -/
def deciding (r : RunProgram) (y : Synchronizer) : State := with0 up (runningChannel r y (heard .active))

theorem test_CheckDecision :
    Delivered (deciding program (synced .check 15)) program ∧ 15 + 1 = program.frameLength
      ∧ within ((synced .check 15).take program true).lastDistance program.checkTol = true
      ∧ ((synced .check 15).take program true).checkCount + 1 < program.checkCount
      ∧ ((synced .check 15).take program false).lastDistance = some 1 ∧ 1 ≤ program.checkTol
      ∧ program.checkCount ≤ (({ synced .check 15 with checkCount := 1 } : Synchronizer).take program true).checkCount + 1
      ∧ within (upsideDown.take program true).lastDistance program.checkTol = false
      ∧ (synced .check 15).heldOpen = none ∧ (synced .check 15).exhausted = false
      ∧ Delivered (deciding program (spent { synced .check 15 with checkCount := 1 })) program
      ∧ ((spent (synced .check 15)).take program true).exhausted = true := by decide

theorem test_LockDecision :
    Delivered (deciding program (synced .lock 15)) program ∧ (synced .lock 15).heldOpen = none
      ∧ 15 + 1 = program.frameLength ∧ (synced .lock 15).exhausted = false
      ∧ ((synced .lock 15).take program false).lastDistance = some 1 ∧ 1 ≤ program.lockTol
      ∧ within (({ synced .lock 15 with history := [] } : Synchronizer).take program true).lastDistance program.lockTol
        = false
      ∧ (({ synced .lock 15 with history := [] } : Synchronizer).take program true).state = .lock
      ∧ (1 : Nat) ≤ program.flywheelLimit
      ∧ ((synced .flywheel 15).take program false).state = .flywheel
      ∧ ((synced .flywheel 15).take program false).lastDistance = some 1
      ∧ program.flywheelLimit < ({ synced .flywheel 15 with missCount := 1 } : Synchronizer).missCount + 1
      ∧ Delivered (deciding { program with slipWindow := 1 } (synced .lock 15)) { program with slipWindow := 1 }
      ∧ Delivered (deciding program (spent (synced .lock 15))) program
      ∧ ((spent (synced .lock 15)).take program false).lastDistance = some 1
      ∧ ((spent (synced .lock 15)).take program false).exhausted = true := by
  decide

/-- R71, R85: at a boundary CH0 holds a program or none, and its slot read is outstanding or not. -/
theorem test_Boundary :
    ((deciding program (synced .lock 15)).chan .ch0).prog.held = none
      ∧ (((deciding program (synced .lock 15)).modProg .ch0 fun p => { p with held := some (.halt 9 false) }).chan .ch0
        ).prog.runState = .running
      ∧ (((deciding program (synced .lock 15)).modProg .ch0 fun p => { p with held := some (.halt 9 false) }).takeHeldFraming
        .ch0).port.outstanding (.slotRead .ch0) = false
      ∧ ((deciding program (synced .lock 15)).request (.slotRead .ch0)).port.outstanding (.slotRead .ch0) = true := by decide

/-- R25, log 18: a light change to check_count 2 and flywheel_limit 1, in CHECK, in LOCK and in FLYWHEEL. -/
theorem test_adjust :
    (({ synced .check 3 with checkCount := 2 } : Synchronizer).adjust program).checkCount = 1
      ∧ (({ synced .lock 3 with checkCount := 5 } : Synchronizer).adjust program).checkCount = 2
      ∧ (({ synced .lock 3 with checkCount := 2 } : Synchronizer).adjust program).checkCount = 2
      ∧ (({ synced .flywheel 3 with missCount := 4 } : Synchronizer).adjust program).missCount = 1 := by decide

/-- A decision held open at the exact position, CH0 one bit before the late position. -/
def held (early : Option Nat) (misses : Nat) : Synchronizer :=
  { synced .flywheel 16 with heldOpen := some ⟨some 3, early⟩, missCount := misses }

theorem test_LatePositionDecision :
    Delivered (deciding { program with slipWindow := 1 } (held (some 1) 0)) { program with slipWindow := 1 }
      ∧ (held (some 1) 0).position = program.frameLength ∧ (held (some 1) 0).exhausted = false
      ∧ within (some 1) program.lockTol = true ∧ within (some 2) program.lockTol = false
      ∧ within ((held (some 2) 0).take program true).lastDistance program.lockTol = true
      ∧ within (({ held (some 2) 0 with history := [] } : Synchronizer).take program true).lastDistance program.lockTol
        = false
      ∧ ((held (some 1) 0).take program true).state = .flywheel
      ∧ (({ held none 0 with state := .lock, history := [] } : Synchronizer).take program true).state = .lock
      ∧ (held none 0).missCount + 1 ≤ program.flywheelLimit ∧ program.flywheelLimit < (held none 1).missCount + 1
      ∧ Delivered (deciding { program with slipWindow := 1 } (spent (held (some 1) 0))) { program with slipWindow := 1 }
      ∧ ((spent (held (some 1) 0)).take program true).exhausted = true := by
  decide

/-! ### Device Control -/

/-- A header at the limits of what is valid. -/
def headerBytes : List Byte :=
  bytesOf 4 1 ++ bytesOf 4 1 ++ bytesOf 2 255 ++ bytesOf 2 1 ++ bytesOf 4 65535 ++ bytesOf 8 0xFFFFFFFFF000
    ++ bytesOf 4 0x100000 ++ bytesOf 4 7 ++ List.replicate 224 0

/-- A session in STARTING. -/
def starting : State := { up with device := .starting, idlePoll := none }

theorem test_HeaderRead :
    (flight starting .headerRead).Inv ∧ (flight starting .headerRead).device = .starting
      ∧ headerBytes.length = (starting.transaction .headerRead).length ∧ (Header.parse headerBytes).valid = true
      ∧ (List.replicate 256 (0 : Byte)).length = (starting.transaction .headerRead).length
      ∧ (Header.parse (List.replicate 256 0)).valid = false
      ∧ (flight starting .headerRead).port.classB = [] ∧ (flight starting .headerRead).events.placement = .idle :=
  ⟨inv_of_check (by decide), by decide +kernel⟩

theorem test_HeaderRead_answers : (flight starting .headerRead).Answering .headerRead (starting.transaction .headerRead) :=
  flight_answering _ _ rfl

theorem test_FaultingErrors_still : (up.enterFaulted .slotAccess).Still := enterFaulted_still _ _

theorem test_FaultingErrors :
    (flight up (.servedWrite .ch7)).Answering (.servedWrite .ch7) (up.transaction (.servedWrite .ch7))
      ∧ (flight up .testStatus).Answering .testStatus (up.transaction .testStatus)
      ∧ (flight up .journalRecord).Answering .journalRecord (up.transaction .journalRecord) :=
  ⟨flight_answering _ _ rfl, flight_answering _ _ rfl, flight_answering _ _ rfl⟩

/-- CH0 HALTED with a program pending. -/
def haltedPending : State :=
  with0 up { Channel.reset with prog := { ProgramUnit.reset with runState := .halted, held := some (.run program) } }

/-- A drain whose channels are all settled, but CH0, which has an open spell if `spell`. -/
def draining (run spell : Bool) : State :=
  with0 { up with device := .draining, regs := { up.regs with run := run } }
    { Channel.reset with
      wb := { Writeback.reset with spell := if spell then some ⟨0, 0, 1, true, false, 0⟩ else none } }

theorem test_WritebackSettled :
    haltedPending.resetHeld = false ∧ haltedPending.device = .running
      ∧ (haltedPending.chan .ch0).prog.runState = .halted ∧ (haltedPending.chan .ch0).prog.held = some (.run program)
      ∧ haltedPending.settled .ch0 = true ∧ (draining false false).settled .ch0 = true
      ∧ (draining false true).settled .ch0 = false ∧ (draining true false).regs.run = true
      ∧ (draining false false).regs.run = false ∧ (draining false false).device = .draining := by decide

theorem test_WritebackSettled_drain :
    (draining false false).Inv ∧ (draining true false).Inv ∧ ∀ ch, (draining false false).settled ch = true :=
  ⟨inv_of_check (by decide), inv_of_check (by decide), fun ch => by cases ch <;> decide⟩

/-! ### Time -/

/-- The gap, capture holdoff, journal holdoff, idle-poll and response timers at these counts. -/
def timers (gap capture journal poll response : Nat) : State :=
  { with0 up
      { runningChannel program (synced .search 0) { heard .active with gap := some gap } with
        wb := { Writeback.reset with holdoff := some capture } } with
    events := { up.events with holdoff := some journal }
    idlePoll := some poll
    port := { up.port with timer := some response } }

theorem test_Tick_inv :
    (timers 2548 998 998 99998 6498).Inv ∧ (timers 2549 998 998 99998 6498).Inv ∧ (timers 2548 999 998 99998 6498).Inv
      ∧ (timers 2548 998 999 99998 6498).Inv ∧ (timers 2548 998 998 99999 6498).Inv
      ∧ (timers 2548 998 998 99998 6499).Inv :=
  ⟨inv_of_check (by decide), inv_of_check (by decide), inv_of_check (by decide), inv_of_check (by decide),
    inv_of_check (by decide), inv_of_check (by decide)⟩

/-- Every timer two ticks short of its end, and each of them one tick short alone: `timers 2549 998 998 99998 6498`,
`timers 2548 999 998 99998 6498`, and so on. The other channels have no timer that runs. -/
theorem test_Tick :
    2548 + 1 < 10 * ((timers 2548 998 998 99998 6498).chan .ch0).prog.clockTimeout
      ∧ 10 * ((timers 2549 998 998 99998 6498).chan .ch0).prog.clockTimeout ≤ 2549 + 1
      ∧ ((timers 2549 998 998 99998 6498).chan .ch0).monitor.evaluating = true
      ∧ ((timers 2549 998 998 99998 6498).chan .ch0).monitor.state ≠ .noclock
      ∧ 998 + 1 < 10 * up.params.holdoffUs.toNat ∧ 10 * up.params.holdoffUs.toNat ≤ 999 + 1
      ∧ 99998 + 1 < 10000 * up.params.idlePollMs.toNat ∧ 10000 * up.params.idlePollMs.toNat ≤ 99999 + 1
      ∧ (6498 : Nat) + 1 < 6500 ∧ (6500 : Nat) ≤ 6499 + 1
      ∧ ((timers 2548 998 998 99998 6498).chan .ch1).monitor.evaluating = false
      ∧ ((timers 2548 998 998 99998 6498).chan .ch1).wb.holdoff = none := by decide

/-! ### The memory port -/

/-- A port on which these wait, with this guard count. -/
def waitingPort (a b : List Request) (c : Bool) (guard : Nat) : Port :=
  { Port.reset with
    classA := a
    classB := b
    classC := (PerChannel.all false).set .ch7 c
    roundRobin := .ch1
    guard := guard }

theorem test_Grant :
    (waitingPort [.mirrorWrite] [.headerRead] true 8).inFlight = none
      ∧ (waitingPort [.mirrorWrite] [.headerRead] true 8).classC.get (Nat.repeat chanAfter 6 .ch1) = true
      ∧ (waitingPort [] [] true 0).classC.get (Nat.repeat chanAfter 5 .ch1) = false
      ∧ (waitingPort [.mirrorWrite] [.headerRead] true 7).guard ≠ 8
      ∧ (waitingPort [] [.headerRead] false 8).classC.get .ch7 = false := by decide

theorem test_Grant_sorted : (waitingPort [.mirrorWrite] [.headerRead] true 8).Sorted := by
  refine ⟨fun r hr => ?_, fun r hr => ?_⟩ <;> (have hr := List.mem_singleton.1 hr; subst hr; rfl)

theorem up_idle : ∀ r, up.port.waiting r = false := fun r => by
  cases r <;> first | rfl | (rename_i ch; cases ch <;> rfl)

theorem test_Arrivals :
    up.port.Sorted ∧ up.port.arrivals = [] ∧ up.port.inFlight = none ∧ (∀ r, up.port.waiting r = false)
      ∧ (flight up .headerRead).port.inFlight ≠ none ∧ (flight up .headerRead).port.waiting .mirrorWrite = false
      ∧ ({ (flight up .headerRead).port with classA := [.mirrorWrite] } : Port).waiting .mirrorWrite = true :=
  ⟨Port.reset_sorted, rfl, rfl, up_idle, by decide⟩

/-- R177: an idle port takes the first of two requests at once, whatever its class; the second waits behind it. -/
theorem test_arrivals_order :
    ((((up.request (.slotRead .ch0)).request .journalMark).arbitrate).port.inFlight.map (·.request) = some (.slotRead .ch0))
      ∧ ((up.request (.slotRead .ch0)).request .journalMark).arbitrate.port.classA = [.journalMark] := by decide

theorem test_TimeoutAndLateResponse :
    up.port.inFlight = none ∧ (flight up .mirrorWrite).port.inFlight = some (up.transaction .mirrorWrite)
      ∧ (up.transaction .mirrorWrite).request ≠ .headerRead := by decide

theorem test_QuietCompletions :
    (flight up (.generationWrite .ch0)).Answering (.generationWrite .ch0) (up.transaction (.generationWrite .ch0))
      ∧ (up.transaction (.generationWrite .ch0)).address + (up.transaction (.generationWrite .ch0)).data.length ≤ 2 ^ 48
      ∧ (up.transaction (.generationWrite .ch0)).data[9]? = some 0
      ∧ (flight up (.reRead .ch0)).port.atStarting.inFlight
        = some { up.transaction (.reRead .ch0) with orphan := true }
      ∧ ([1, 2, 3, 4] : List Byte).length = (up.transaction (.reRead .ch0)).length :=
  ⟨flight_answering _ _ rfl, by decide⟩

/-! ### Program adoption -/

/-- A fetch of generation 5, after its first read if it has one. -/
def fetching (fixedPart : Option (List Byte)) (torn : Nat) (held : Option Program) : State :=
  with0 up
    { Channel.reset with
      prog := { ProgramUnit.reset with fetch := some ⟨5, 0x2000, fixedPart⟩, tornCount := torn, held := held } }

/-- The fixed part of a RUN program like `program`, of generation 5. -/
def fixedBytes : List Byte :=
  bytesOf 4 5 ++ [1, 0, 1, 8] ++ bytesOf 8 0x1D ++ bytesOf 8 0xFF ++ bytesOf 4 16 ++ [0, 1, 1, 2, 1, 0, 0, 255]
    ++ bytesOf 4 64 ++ List.replicate 8 0

/-- Its second read, with this generation_tail. -/
def tailBytes (generation : Nat) : List Byte := bytesOf 4 8 ++ bytesOf 4 8 ++ bytesOf 4 generation ++ bytesOf 4 0

/-- R205: the fields of a program lie where the format says. -/
theorem test_parseProgram :
    parseProgram fixedBytes (tailBytes 5) = (.run { program with generation := 5, autoPolarity := false }, .none) := by
  decide

theorem test_SlotRead :
    (flight up (.slotRead .ch0)).Inv ∧ (List.replicate 32 (0 : Byte)).length = (up.transaction (.slotRead .ch0)).length
      ∧ (up.chan .ch0).prog.isNew 1 = true ∧ (up.chan .ch0).prog.isNew 0 = false ∧ (up.chan .ch0).prog.fetch = none
      ∧ addressUsable 0xFFFFFFFFFFF8 8 = true ∧ addressUsable 0x1000000000000 8 = false
      ∧ addressUsable 0xFFFFFFFFFFFC 8 = false ∧ (flight starting (.slotRead .ch0)).device ≠ .running :=
  ⟨inv_of_check (by decide), by decide⟩

theorem test_FetchReads :
    (flight (fetching none 0 none) (.fetchFixed .ch0)).Inv
      ∧ fixedBytes.length = ((fetching none 0 none).transaction (.fetchFixed .ch0)).length
      ∧ (byteAt fixedBytes 4).toNat ≠ 2 ∧ (byteAt fixedBytes 6).toNat = 1
      ∧ (byteAt (bytesOf 4 5 ++ [2]) 4).toNat = 2 ∧ (byteAt (bytesOf 4 5 ++ [1, 0, 9]) 6).toNat = 9 :=
  ⟨inv_of_check (by decide), by decide⟩

theorem test_FetchReads_answers :
    (flight (fetching none 0 none) (.fetchFixed .ch0)).Answering (.fetchFixed .ch0)
        ((fetching none 0 none).transaction (.fetchFixed .ch0))
      ∧ (flight (fetching (some fixedBytes) 0 none) (.fetchTail .ch0)).Answering (.fetchTail .ch0)
        ((fetching (some fixedBytes) 0 none).transaction (.fetchTail .ch0)) :=
  ⟨flight_answering _ _ rfl, flight_answering _ _ rfl⟩

theorem test_FetchTail :
    (flight (fetching (some fixedBytes) 2 (some (.halt 4 false))) (.fetchTail .ch0)).Inv
      ∧ (tailBytes 5).length = ((fetching (some fixedBytes) 2 none).transaction (.fetchTail .ch0)).length
      ∧ wordAt fixedBytes 0 = 5 ∧ wordAt (tailBytes 5) ((tailBytes 5).length - 8) = 5
      ∧ wordAt (tailBytes 6) ((tailBytes 6).length - 8) ≠ 5
      ∧ (parseProgram (bytesOf 4 5 ++ [7]) (tailBytes 5)).2 = .badKind :=
  ⟨inv_of_check (by decide), by decide⟩

theorem test_ProgramTorn :
    (flight (fetching (some fixedBytes) 3 none) (.fetchTail .ch0)).Inv
      ∧ ((fetching (some fixedBytes) 3 none).chan .ch0).prog.tornCount = 3
      ∧ ((fetching (some fixedBytes) 2 none).chan .ch0).prog.tornCount ≠ 3 ∧ (up.chan .ch0).prog.fetch = none :=
  ⟨inv_of_check (by decide), by decide⟩

/-- R53: windows that end at the window limit, end beyond it under SLIP, overlap, and carry too much. -/
theorem test_WindowTests :
    program.validate = .none ∧ ({ program with slipWindow := 1 } : RunProgram).validate = .windowBounds
      ∧ ({ program with windows := [⟨0, 8⟩, ⟨7, 8⟩] } : RunProgram).validate = .windowOrder
      ∧ ({ program with windows := [⟨0, 8⟩, ⟨8, 7⟩] } : RunProgram).validate = .windowBounds
      ∧ ({ program with frameLength := 65536, windows := [⟨0, 65536⟩] } : RunProgram).validate = .none
      ∧ ({ program with frameLength := 65536, windows := [⟨0, 9⟩, ⟨9, 65527⟩] } : RunProgram).validate = .payloadSize := by
  decide

/-- R52: each test with the first value it refuses. -/
theorem test_ProgramContents :
    (parseProgram (bytesOf 4 5 ++ [2, 1]) []).2 = .none ∧ (parseProgram (bytesOf 4 5 ++ [3]) []).2 = .badKind
      ∧ ({ program with syncLength := 65 } : RunProgram).validate = .syncLength
      ∧ ({ program with syncMask := 0x7F } : RunProgram).validate = .syncMask
      ∧ ({ program with frameLength := 15 } : RunProgram).validate = .frameLength
      ∧ ({ program with lockTol := 3 } : RunProgram).validate = .tolerance
      ∧ ({ program with checkCount := 16 } : RunProgram).validate = .checkCount
      ∧ ({ program with flywheelLimit := 16 } : RunProgram).validate = .flywheelLimit
      ∧ ({ program with slipWindow := 2 } : RunProgram).validate = .slip
      ∧ ({ program with clockTimeoutUs := 0 } : RunProgram).validate = .clockTimeout
      ∧ ({ program with windowCount := 9 } : RunProgram).validate = .windowCount
      ∧ (RunProgram.parse fixedBytes (tailBytes 5)).windows[0]? = some ⟨8, 8⟩ := by
  decide

/-- CH0 IDLE, with these slot values. -/
def slotted (base : Dword) (size : Word) : State :=
  with0 up { Channel.reset with prog := { ProgramUnit.reset with latestAreaBase := base, latestAreaSize := size } }

theorem test_RunStart :
    ((slotted 0x80000 0x4000).chan .ch0).prog.runState = .idle
      ∧ ((slotted 0x80000 0x4000).chan .ch0).prog.areaUsable = true
      ∧ ((slotted 0xFFFFFFFFF000 0x1000000).chan .ch0).prog.areaUsable = true
      ∧ ((slotted 0x80000 0x2000).chan .ch0).prog.areaUsable = false ∧ up.device.takesEvents = true
      ∧ up.events.queue.length + 4 ≤ 16 ∧ ((slotted 0x80000 0x4000).chan .ch0).prog.input = .line
      ∧ ((slotted 0x80000 0x4000).chan .ch0).sync.state = .off
      ∧ 10 * program.clockTimeoutUs ≤ 2550 := by decide

/-- CH0 ARMED under a program. -/
def armed (r : RunProgram) : State :=
  (with0 up (runningChannel r .reset (heard .active))).modProg .ch0 fun p => { p with runState := .armed }

theorem test_RunStart_views :
    ProgramUnit.reset.settings = none ∧ ProgramUnit.reset.inForce = none
      ∧ ((armed program).chan .ch0).prog.settings = some program
      ∧ ((armed program).chan .ch0).prog.inForce = some (.run program)
      ∧ ({ ProgramUnit.reset with inForce := some (.halt 4 true) } : ProgramUnit).adopted = 4 := by decide

theorem test_ProgramReplaced :
    (mixed.chan .ch0).prog.runState = .running ∧ (mixed.chan .ch0).prog.settings = some program
      ∧ ({ program with frameLength := 17 } : RunProgram).heavyOver program = true
      ∧ ({ program with cut := true, syncPattern := 0x11D } : RunProgram).heavyOver program = false
      ∧ (mixed.chan .ch0).prog.runState ≠ .halted ∧ (haltedPending.chan .ch0).prog.runState = .halted
      ∧ (mixed.chan .ch0).monitor.gap = some 0 ∧ 0 < 10 * program.clockTimeoutUs
      ∧ (mixed.chan .ch0).sync.state = .lock ∧ (mixed.chan .ch0).monitor.evaluating = true
      ∧ (mixed.chan .ch0).monitor.state ≠ .noclock
      ∧ ((monitored { heard .active with gap := some 2550 }).chan .ch0).monitor.gap = some 2550
      ∧ ((armed { program with startOnStrt := true }).chan .ch0).prog.runState = .armed
      ∧ ((armed { program with startOnStrt := true }).chan .ch0).sync.state = .off
      ∧ ((armed { program with startOnStrt := true }).chan .ch0).prog.settings
        = some { program with startOnStrt := true } := by decide

/-! ### Frame capture -/

/-- A frame begun. -/
def frame7 (flywheel : Bool) : Frame := ⟨7, flywheel, false, false, false, 0, 5, false⟩

/-- A record in fill in buffer A under `program`, with this many windows complete and these bits of the next. -/
def filling (cursor : Nat) (bits : List Bool) : Fill :=
  { Fill.begin .a (frame7 false) 1 program with cursor := cursor, partialWindow := bits }

/-- CH0 in LOCK with this capture. -/
def capturing (c : Capture) : State :=
  with0 up { runningChannel program (synced .lock 3) (heard .active) with capture := c }

theorem test_FrameJudged :
    ((capturing .reset).chan .ch0).prog.settings = some program ∧ ((capturing .reset).chan .ch0).sync.state = .lock
      ∧ ((capturing .reset).chan .ch0).capture.phase = 0 ∧ program.keepFlywheel = false
      ∧ (capturing .reset).frameJudged .ch0 (frame7 true) [] = capturing .reset
      ∧ (Capture.reset).freeBuffer = some .a
      ∧ ({ Capture.reset with fill := some (filling 0 []), queue := [⟨.b, [], 3, 9, none⟩] } : Capture).freeBuffer = none := by
  decide

theorem test_RecordFilled :
    ((capturing { Capture.reset with fill := some (filling 0 [true]) }).chan .ch0).capture.fill = some (filling 0 [true])
      ∧ (filling 0 [true]).plan.windows[(filling 0 [true]).cursor]? = some ⟨8, 8⟩
      ∧ (7 : Nat) < (⟨8, 8⟩ : Window).start ∧ (⟨8, 8⟩ : Window).start + (⟨8, 8⟩ : Window).length ≤ 16
      ∧ 14 + 1 < (⟨8, 8⟩ : Window).start + (⟨8, 8⟩ : Window).length
      ∧ 15 + 1 = (⟨8, 8⟩ : Window).start + (⟨8, 8⟩ : Window).length
      ∧ (filling 0 []).cursor + 1 = (filling 0 []).plan.windows.length
      ∧ (filling 0 []).cursor + 1 < ({ (filling 0 []).plan with windows := [⟨0, 8⟩, ⟨8, 8⟩] } : WindowPlan).windows.length
      ∧ (filling 1 []).cursor ≠ 0 ∧ ((capturing .reset).chan .ch0).capture.fill = none := by decide

theorem test_Transactions :
    ((fetching none 0 none).chan .ch0).prog.fetch = some ⟨5, 0x2000, none⟩
      ∧ ({ Statistics.reset with latch := some ⟨9, .zero⟩ } : Statistics).latch = some ⟨9, .zero⟩
      ∧ (up.transaction (.statusWrite .ch7)).address = 0x10000 + 256 + 256 * 7 + 74 := by decide

/-! ### Capture areas -/

/-- CH0 RUNNING with this writeback and this queue. -/
def placing (w : Writeback) (queue : List ClosedRecord) : State :=
  with0 up
    { runningChannel program (synced .lock 3) (heard .active) with wb := w, capture := { Capture.reset with queue := queue } }

/-- A closed record of 40 bytes, with this tally. -/
def closed (tally : Option Tally) : ClosedRecord := ⟨.a, List.replicate 40 7, 3, 9, tally⟩

theorem test_ReleaseOffered :
    ((placing { Writeback.reset with writeMark := 64 } []).chan .ch0).prog.area ≠ none
      ∧ (64 - (0 : Word)).toNat ≤ (64 - (0 : Word)).toNat ∧ ¬(72 - (0 : Word)).toNat ≤ (64 - (0 : Word)).toNat
      ∧ (up.chan .ch0).prog.area = none := by decide

/-- CH0 HALTED with an empty queue and an open spell. -/
def spellAlone : State :=
  (placing { Writeback.reset with spell := some ⟨3, 3, 1, true, false, 9⟩ } []).modProg .ch0 fun p =>
    { p with runState := .halted }

/-- A group at the end of the area: it fits without a PAD at offset 16344, and needs one at 16352. -/
theorem test_GroupTakenUp :
    ((placing { Writeback.reset with writeMark := 16344, acceptedRelease := 16344 } [closed none]).chan .ch0).nextGroup
        = some ⟨false, false, 0, 16344, 40⟩
      ∧ ((placing { Writeback.reset with writeMark := 16352, acceptedRelease := 16352 } [closed none]).chan .ch0).nextGroup
        = some ⟨false, false, 32, 16352, 40⟩
      ∧ (placing { Writeback.reset with writeMark := 16344 } [closed none]).areaRoom .ch0 = 40
      ∧ (placing { Writeback.reset with writeMark := 16345 } [closed none]).areaRoom .ch0 < 40
      ∧ (spellAlone.chan .ch0).prog.runState = .halted ∧ (spellAlone.chan .ch0).capture.queue = []
      ∧ (spellAlone.chan .ch0).wb.spell ≠ none ∧ (spellAlone.chan .ch0).wb.placement = .idle
      ∧ ((placing .reset []).chan .ch0).wb.spell = none
      ∧ (spellAlone.chan .ch0).nextGroup = some ⟨true, true, 0, 0, 32⟩ := by decide

/-- A re-read for a group of 40 bytes when `room` bytes are free. -/
def rereading (alone : Bool) (room : Nat) : State :=
  placing
    { Writeback.reset with writeMark := BitVec.ofNat 32 (16384 - room), placement := .reread ⟨alone, alone, 0, 0, 40⟩ }
    [closed none]

theorem test_ReRead :
    (flight (rereading false 40) (.reRead .ch0)).Inv ∧ (rereading false 40).areaRoom .ch0 = 40
      ∧ (rereading false 39).areaRoom .ch0 < 40 ∧ (rereading true 39).areaRoom .ch0 < 40
      ∧ ([1, 2, 3, 4] : List Byte).length = ((rereading false 40).transaction (.reRead .ch0)).length
      ∧ ((placing .reset []).chan .ch0).wb.placement = .idle :=
  ⟨inv_of_check (by decide), by decide⟩

theorem test_ReRead_answers :
    (flight (rereading false 40) (.reRead .ch0)).Answering (.reRead .ch0) ((rereading false 40).transaction (.reRead .ch0)) :=
  flight_answering _ _ rfl

/-- The bursts of a group being written. -/
def bursting (bursts : List Burst) (tally : Option Tally) : State :=
  placing { Writeback.reset with placement := .writing ⟨false, false, 0, 0, 40⟩ bursts } [closed tally]

theorem test_RecordBurst :
    (flight (bursting [⟨0x80000, [1]⟩] none) (.recordBurst .ch0)).Answering (.recordBurst .ch0)
        ((bursting [⟨0x80000, [1]⟩] none).transaction (.recordBurst .ch0))
      ∧ ((bursting [⟨0x80000, [1]⟩, ⟨0x80100, [2]⟩] none).chan .ch0).wb.placement
        = .writing ⟨false, false, 0, 0, 40⟩ (⟨0x80000, [1]⟩ :: ⟨0x80100, [2]⟩ :: [])
      ∧ ((bursting [⟨0x80000, [1]⟩] (some ⟨4, 6, 2, 9⟩)).chan .ch0).wb.placement
        = .writing ⟨false, false, 0, 0, 40⟩ [⟨0x80000, [1]⟩]
      ∧ ((bursting [⟨0x80000, [1]⟩] (some ⟨4, 6, 2, 9⟩)).chan .ch0).capture.queue = closed (some ⟨4, 6, 2, 9⟩) :: []
      ∧ ((bursting [] none).chan .ch0).wb.spell = none
      ∧ (spellAlone.chan .ch0).wb.spell = some ⟨3, 3, 1, true, false, 9⟩ ∧ (closed none).tally = none ∧ 0x80000 < 2 ^ 48 :=
  ⟨flight_answering _ _ rfl, by decide⟩

theorem test_MarkWrite :
    (flight (placing { Writeback.reset with writeMark := 64 } []) (.markWrite .ch0)).Answering (.markWrite .ch0)
        ((placing { Writeback.reset with writeMark := 64 } []).transaction (.markWrite .ch0))
      ∧ wordAt ((placing { Writeback.reset with writeMark := 64 } []).transaction (.markWrite .ch0)).data 0 = 64
      ∧ program.captureNotifyBytes.toNat ≤ (64 - (0 : Word)).toNat
      ∧ (56 - (0 : Word)).toNat < program.captureNotifyBytes.toNat ∧ (64 : Word) ≠ Writeback.reset.notified
      ∧ Writeback.reset.runMarked = false :=
  ⟨flight_answering _ _ rfl, by decide⟩

/-! ### The journal -/

/-- A journal with these marks, queue and placement. -/
def journal (writeMark : Word) (queue : List Event) (dropped : Half) (placement : JournalPlacement) : State :=
  { up with
    events := { up.events with writeMark := writeMark, queue := queue, droppedCount := dropped, placement := placement } }

theorem test_EventHandedOver :
    up.device = .running ∧ starting.device = .starting ∧ up.events.placement = .idle
      ∧ (journal 0 (List.replicate 15 ⟨none, .startEdge, 0⟩) 0 .blocked).events.queue.length < 16
      ∧ 16 ≤ (journal 0 (List.replicate 16 ⟨none, .startEdge, 0⟩) 0 .blocked).events.queue.length
      ∧ (journal 0 (List.replicate 16 ⟨none, .startEdge, 0⟩) 0 .blocked).events.placement = .blocked
      ∧ ((journal 0 (List.replicate 16 ⟨none, .startEdge, 0⟩) 0 .blocked).hand none .startEdge).events.droppedTotal = 1 := by
  decide

theorem test_JournalPlacement :
    (journal 4064 [⟨none, .startEdge, 0⟩] 0 .idle).journalRoom = 32
      ∧ (journal 4065 [⟨none, .startEdge, 0⟩] 0 .idle).journalRoom < 32
      ∧ (journal 4064 [] 1 .idle).events.droppedCount ≠ 0
      ∧ (journal 0 [⟨none, .startEdge, 0⟩] 0 .blocked).events.placement ≠ .idle
      ∧ (journal 0 [] 0 .idle).events.queue = [] := by decide

/-- A record being written at this offset. -/
def recording (offset : Nat) : State := journal 4080 [] 0 (.writing ⟨⟨none, .startEdge, 0⟩, 0, offset, true, false⟩)

theorem test_JournalRecordWritten :
    (flight (recording 4080) .journalRecord).Answering .journalRecord ((recording 4080).transaction .journalRecord)
      ∧ (recording 4080).events.placement = .writing ⟨⟨none, .startEdge, 0⟩, 0, 4080, true, false⟩
      ∧ up.params.journalSize.toNat < 4080 + 32 ∧ ¬up.params.journalSize.toNat < 4064 + 32 :=
  ⟨flight_answering _ _ rfl, by decide⟩

theorem test_JournalReRead :
    (flight (journal 32 [] 0 .blocked) .journalReRead).Inv
      ∧ ([32, 0, 0, 0] : List Byte).length = (up.transaction .journalReRead).length
      ∧ (wordAt [32, 0, 0, 0] 0 - (0 : Word)).toNat ≤ (32 - (0 : Word)).toNat
      ∧ ¬(wordAt [33, 0, 0, 0] 0 - (0 : Word)).toNat ≤ (32 - (0 : Word)).toNat
      ∧ (journal 4064 [⟨none, .startEdge, 0⟩] 0 .blocked).events.placement = .blocked
      ∧ (journal 4064 [⟨none, .startEdge, 0⟩] 0 .reread).events.placement = .reread :=
  ⟨inv_of_check (by decide), by decide⟩

theorem test_JournalReRead_answers :
    (flight (journal 32 [] 0 .blocked) .journalReRead).Answering .journalReRead
      ((journal 32 [] 0 .blocked).transaction .journalReRead) := flight_answering _ _ rfl

theorem test_JournalMarkWrite :
    (flight (journal 128 [] 0 .idle) .journalMark).Answering .journalMark ((journal 128 [] 0 .idle).transaction .journalMark)
      ∧ up.params.journalThreshold.toNat ≤ (wordAt ((journal 128 [] 0 .idle).transaction .journalMark).data 0 - 0).toNat / 32
      ∧ (wordAt ((journal 96 [] 0 .idle).transaction .journalMark).data 0 - 0).toNat / 32 < up.params.journalThreshold.toNat
      ∧ wordAt ((journal 0 [] 0 .idle).transaction .journalMark).data 0 = up.events.noticed :=
  ⟨flight_answering _ _ rfl, by decide⟩

/-! ### Statistics and the Test Source -/

theorem test_Snapshot :
    (flight up (.blockWrite .ch0)).Answering (.blockWrite .ch0) (up.transaction (.blockWrite .ch0))
      ∧ (1 : Half) ≠ (up.chan .ch0).stats.served ∧ up.outstanding (.blockWrite .ch0) = false
      ∧ up.outstanding (.servedWrite .ch0) = false :=
  ⟨flight_answering _ _ rfl, by decide⟩

theorem test_TestSample :
    (flight up .testSample).Inv ∧ (List.replicate 12 (0 : Byte)).length = (up.transaction .testSample).length
      ∧ up.test.isNew 1 = true ∧ up.test.isNew 0 = false ∧ up.test.fetch = none ∧ addressUsable 8 8 = true
      ∧ addressUsable 4 8 = false :=
  ⟨inv_of_check (by decide), by decide⟩

theorem test_TestSample_answers : (flight up .testSample).Answering .testSample (up.transaction .testSample) :=
  flight_answering _ _ rfl

/-- A Test Source with a block fetch of generation 2. -/
def blockFetching (state : SourceState) : State :=
  { up with test := { up.test with state := state, fetch := some ⟨2, 0x3000⟩ } }

/-- A Test Source Block of generation 2 with this run byte. -/
def blockBytes (run : Byte) : List Byte :=
  bytesOf 4 2 ++ [run, 8, 7, 6] ++ bytesOf 8 0x1D ++ bytesOf 4 16 ++ bytesOf 2 4 ++ [7, 8, 255, 0, 0, 0] ++ bytesOf 4 1
    ++ bytesOf 4 2 ++ bytesOf 4 0

/-- R164: each test with the first value it refuses. -/
theorem test_TestBlockContents :
    let p := TestSettings.parse (blockBytes 1)
    p.validate = .none ∧ { p with run := 2 }.validate = .run ∧ { p with bitDivider := 3 }.validate = .bitDivider
      ∧ { p with syncLength := 7 }.validate = .syncLength ∧ { p with frameLength := 15 }.validate = .frameLength
      ∧ { p with lfsrLength := 32 }.validate = .lfsrLength ∧ { p with lfsrTap := 7 }.validate = .lfsrTap
      ∧ { p with errorExponent := 8 }.validate = .errorExponent ∧ { p with corruptBits := 9 }.validate = .corruptBits := by
  decide

theorem test_TestBlockFetch :
    (flight (blockFetching .running) .blockFetch).Inv ∧ (flight (blockFetching .stopped) .blockFetch).Inv
      ∧ (blockBytes 1).length = ((blockFetching .running).transaction .blockFetch).length
      ∧ wordAt (blockBytes 1) 0 = 2 ∧ wordAt (blockBytes 1) 32 = 2 ∧ (TestSettings.parse (blockBytes 1)).validate = .none
      ∧ (TestSettings.parse (blockBytes 0)).validate = .none ∧ (TestSettings.parse (blockBytes 2)).validate = .run
      ∧ wordAt (List.replicate 40 0) 0 ≠ 2 :=
  ⟨inv_of_check (by decide), inv_of_check (by decide), by decide⟩

theorem test_TestBlockFetch_answers :
    (flight (blockFetching .running) .blockFetch).Answering .blockFetch ((blockFetching .running).transaction .blockFetch) :=
  flight_answering _ _ rfl

/-- A Test Source that emits under the settings of the block above. -/
def emittingSource (position errorCount : Nat) : State :=
  { up with
    test :=
      { up.test with
        state := .running
        settings := some (TestSettings.parse (blockBytes 1))
        position := position
        lfsr := 1
        errorCount := errorCount
        corruptionCount := 254 } }

theorem test_TestBitClock :
    (emittingSource 15 9999999).Inv ∧ (emittingSource 15 9999999).resetHeld = false
      ∧ (emittingSource 15 9999999).device = .running ∧ (emittingSource 15 9999999).test.state = .running
      ∧ (emittingSource 15 9999999).test.settings = some (TestSettings.parse (blockBytes 1))
      ∧ 15 + 1 = (TestSettings.parse (blockBytes 1)).frameLength ∧ (TestSettings.parse (blockBytes 1)).syncLength ≤ 15
      ∧ ((emittingSource 15 0).test.tick (TestSettings.parse (blockBytes 1))).corrupted = true :=
  ⟨inv_of_check (by decide), by decide⟩

theorem test_TestSourceMoves :
    (TestSettings.parse (blockBytes 1)).lfsrLength ≤ 32
      ∧ (emittingSource 7 0).test.position + 1 ≠ (TestSettings.parse (blockBytes 1)).frameLength
      ∧ ¬(TestSettings.parse (blockBytes 1)).syncLength ≤ (emittingSource 7 0).test.position
      ∧ (TestSettings.parse (blockBytes 1)).syncLength ≤ (emittingSource 8 0).test.position
      ∧ (emittingSource 15 0).test.position + 1 = (TestSettings.parse (blockBytes 1)).frameLength
      ∧ (emittingSource 15 0).test.waiting = none
      ∧ (emittingSource 15 0).test.corruptionCount + 1 = (TestSettings.parse (blockBytes 1)).corruptPeriod
      ∧ (emittingSource 15 0).test.stopRequested = false
      ∧ ({ (emittingSource 15 0).test with stopRequested := true } : TestSource).stopRequested = true
      ∧ ({ (emittingSource 15 0).test with waiting := some (TestSettings.parse (blockBytes 0)) } : TestSource).waiting
        = some (TestSettings.parse (blockBytes 0))
      ∧ (TestSettings.parse (blockBytes 0)).run = 0 ∧ (TestSettings.parse (blockBytes 1)).run ≠ 0
      ∧ (emittingSource 15 9999999).test.errorCount + 1 = 10 ^ (TestSettings.parse (blockBytes 1)).errorExponent
      ∧ ({ (emittingSource 15 0).test with
          waiting := some { TestSettings.parse (blockBytes 1) with errorExponent := 3, corruptPeriod := 9, seed := 77 } }
        : TestSource).waiting ≠ some (TestSettings.parse (blockBytes 1))
      ∧ ({ TestSettings.parse (blockBytes 1) with seed := 77 } : TestSettings).sameGenerator (TestSettings.parse (blockBytes 1))
        = false
      ∧ ({ TestSettings.parse (blockBytes 1) with seed := (TestSettings.parse (blockBytes 1)).seed + 0x80000000 } : TestSettings
        ).sameGenerator (TestSettings.parse (blockBytes 1)) = true
      ∧ ¬({ TestSettings.parse (blockBytes 1) with syncLength := 16 } : TestSettings).syncLength
        ≤ (emittingSource 15 0).test.position := by decide

/-! ## Single commands on small states -/

/-- The state a command leaves. -/
def stateAfter (c : Instr) (s : State) : State :=
  match exec c s with
  | .next t => t
  | .fault _ | .refused _ => s

/-- R186, R187: CTRL.RUN in DORMANT issues the header read. -/
theorem test_exec_ctrlRun :
    (stateAfter (.ctrlRun true) State.reset).device = .starting
      ∧ (stateAfter (.ctrlRun true) State.reset).port.inFlight = some ⟨.headerRead, 0, 256, [], false⟩ := by decide

/-- R196: four bytes from offset 6 cover no register whole: SRST and RUN, which they would carry to CTRL, are ignored. -/
theorem test_exec_misaligned : stateAfter (.registerWrite 6 0xF 2) up = up := by decide

/-- CH0 in LOCK with one window of its record complete. -/
def halfFilled : State := capturing { Capture.reset with fill := some (filling 1 []) }

/-- R68, R109, R191: a drain closes the record in fill truncated, and its group is taken up; R29 keeps the frame number. -/
theorem test_exec_drain :
    let c := (stateAfter (.ctrlRun false) halfFilled).chan .ch0
    c.prog.runState = .halted ∧ c.capture.fill = none ∧ c.capture.queue.length = 1 ∧ c.wb.placement ≠ .idle
      ∧ c.stats.counters.truncatedRecords = 1 ∧ c.sync.frameNumber = (halfFilled.chan .ch0).sync.frameNumber := by decide

/-- R22, R58, R109: a heavy change that loses the lock closes the record in fill truncated; a light one leaves it, unless it has CUT
(R89). -/
theorem test_apply_closes :
    let c := (halfFilled.apply .ch0 (.run { program with frameLength := 17 })).chan .ch0
    let d := (halfFilled.apply .ch0 (.run { program with cut := true })).chan .ch0
    c.capture.fill = none ∧ c.capture.queue.length = 1 ∧ c.stats.counters.losses = 1 ∧ d.capture.queue.length = 1
      ∧ d.sync = (halfFilled.chan .ch0).sync
      ∧ ((halfFilled.apply .ch0 (.run program)).chan .ch0).capture = (halfFilled.chan .ch0).capture := by decide

/-- R188, R189: a valid header; the record of DEVICE_STATE goes first, at the journal's release mark, and the mirror waits. -/
theorem test_exec_header :
    (stateAfter (.headerReadComplete (.okay headerBytes)) (flight starting .headerRead)).device = .running
      ∧ (stateAfter (.headerReadComplete (.okay headerBytes)) (flight starting .headerRead)).port.inFlight.map (·.address)
        = some (0xFFFFFFFFF000 + 7)
      ∧ (stateAfter (.headerReadComplete (.okay headerBytes)) (flight starting .headerRead)).port.waiting .mirrorWrite
        = true := by decide +kernel

/-- R189: the slot reads wait from CH0 to CH7, the test sample read behind them. -/
theorem test_exec_header_order :
    (stateAfter (.headerReadComplete (.okay headerBytes)) (flight starting .headerRead)).port.classB
      = allChans.map .slotRead ++ [.testSample] := by decide +kernel

/-- RUNNING, a mirror write in flight; a slot read, a generation write and a re-read wait. -/
def busy : State :=
  { flight up .mirrorWrite with
    port :=
      { (flight up .mirrorWrite).port with
        classA := [.generationWrite .ch2], classB := [.slotRead .ch3, .reRead .ch4] } }

/-- R70, R184, log 34: FAULTED empties the port; the slot read and the generation write stay outstanding, the re-read does not. -/
theorem test_exec_frozen :
    let t := stateAfter (.mirrorWriteComplete .error) busy
    t.device = .faulted ∧ t.port.classA = [] ∧ t.port.classB = [] ∧ t.outstanding (.slotRead .ch3) = true
      ∧ t.writeStatus (.generationWrite .ch2) = .waiting ∧ t.outstanding (.reRead .ch4) = false := by decide

/-- R70: a tick changes nothing of it; a full reset leaves nothing outstanding. -/
theorem test_exec_frozen_stays :
    let t := stateAfter (.mirrorWriteComplete .error) busy
    (stateAfter .timebaseTick t).outstanding (.slotRead .ch3) = true
      ∧ (stateAfter (.fullReset .held) t).outstanding (.slotRead .ch3) = false := by decide

/-- R7: the sync pattern is complete. -/
theorem test_exec_search :
    ((stateAfter (.bitClock .ch0 true) (monitored (heard .active))).chan .ch0).sync.state = .check := by decide

/-- R11, R16, R71: a frame at the exact position, with one bit in error, and the slot sampled. -/
theorem test_exec_lockDecision :
    ((stateAfter (.lockDecision .ch0 false) (deciding program (synced .lock 15))).chan .ch0).stats.counters.syncBitErrors = 1
      ∧ (stateAfter (.lockDecision .ch0 false) (deciding program (synced .lock 15))).port.outstanding (.slotRead .ch0) = true
      ∧ ((stateAfter (.lockDecision .ch0 false) (deciding program (synced .lock 15))).chan .ch0).sync.position = 0 := by
  decide

/-- R200: one tick. -/
theorem test_exec_tick : (stateAfter .timebaseTick up).timebase = 1 ∧ (stateAfter .timebaseTick up).idlePoll = some 1 := by
  decide

/-- R180: the last tick of the response timer ends a mirror write, which faults the device (R182). -/
theorem test_exec_responseTimeout :
    (stateAfter .timebaseTick { flight up .mirrorWrite with port := { (flight up .mirrorWrite).port with timer := some 6499 } }
      ).device = .faulted := by decide

end Sys2Proof.Tests
end

section
/-! PROOFS. The window tests of a RUN program (R53): what each of the three looks for, and which reason they give. -/

namespace Sys2Proof.Machine

/-! ## What each window test looks for -/

/-- R53, WINDOW_ORDER: some window starts before the end of the window before it. -/
def Disordered (ws : List Window) : Prop :=
  ∃ k a b, ws[k]? = some a ∧ ws[k + 1]? = some b ∧ b.start < a.start + a.length

/-- R53, WINDOW_BOUNDS: some window is shorter than 8 bits or ends beyond the window limit. -/
def RunProgram.OutOfBounds (p : RunProgram) : Prop :=
  ∃ w, w ∈ p.windows ∧ (w.length < 8 ∨ p.windowLimit < w.start + w.length)

/-- R53, PAYLOAD_SIZE: the windows carry more than 8192 bytes. -/
def RunProgram.TooLarge (p : RunProgram) : Prop := 8192 < (p.windows.map Window.bytes).sum

@[simp] theorem not_disordered_nil : ¬ Disordered [] := by simp [Disordered]

@[simp] theorem not_disordered_singleton (w : Window) : ¬ Disordered [w] := by simp [Disordered]

/-- The pair that is out of order stands at the front of the list or further on. -/
theorem disordered_cons_cons (w v : Window) (rest : List Window) :
    Disordered (w :: v :: rest) ↔ v.start < w.start + w.length ∨ Disordered (v :: rest) := by
  constructor
  · rintro ⟨k, a, b, ha, hb, hlt⟩
    cases k with
    | zero =>
      obtain rfl : w = a := by simpa using ha
      obtain rfl : v = b := by simpa using hb
      exact .inl hlt
    | succ k => exact .inr ⟨k, a, b, ha, hb, hlt⟩
  · rintro (hlt | ⟨k, a, b, ha, hb, hlt⟩)
    · exact ⟨0, w, v, rfl, rfl, hlt⟩
    · exact ⟨k + 1, a, b, ha, hb, hlt⟩

theorem windowsInOrder_eq_false_iff (ws : List Window) : windowsInOrder ws = false ↔ Disordered ws := by
  induction ws using windowsInOrder.induct with
  | case1 w v rest ih =>
    rw [disordered_cons_cons, ← ih, windowsInOrder, Bool.and_eq_false_iff, decide_eq_false_iff_not, Nat.not_le]
  | case2 ws short =>
    match ws, short with
    | [], _ => simp [windowsInOrder]
    | [w], _ => simp [windowsInOrder]
    | w :: v :: rest, short => exact (short w v rest rfl).elim

theorem RunProgram.outOfBounds_iff_any (p : RunProgram) :
    p.OutOfBounds ↔ p.windows.any (fun w => w.length < 8 || p.windowLimit < w.start + w.length) = true := by
  simp [RunProgram.OutOfBounds]

/-! ## The last three tests of the table -/

/-- R52, R53: tests 11 to 13, in the order of the table. -/
def RunProgram.windowVerdict (p : RunProgram) : RejectReason :=
  if !windowsInOrder p.windows then .windowOrder
  else if p.windows.any (fun w => w.length < 8 || p.windowLimit < w.start + w.length) then .windowBounds
  else if 8192 < (p.windows.map Window.bytes).sum then .payloadSize
  else .none

theorem RunProgram.windowVerdict_of_disordered {p : RunProgram} (hd : Disordered p.windows) :
    p.windowVerdict = .windowOrder := by
  rw [← windowsInOrder_eq_false_iff] at hd
  simp [RunProgram.windowVerdict, hd]

theorem RunProgram.windowVerdict_of_outOfBounds {p : RunProgram} (hd : ¬ Disordered p.windows) (hb : p.OutOfBounds) :
    p.windowVerdict = .windowBounds := by
  rw [← windowsInOrder_eq_false_iff] at hd
  rw [outOfBounds_iff_any] at hb
  rw [RunProgram.windowVerdict, if_neg (by simpa using hd), if_pos hb]

theorem RunProgram.windowVerdict_of_bounded {p : RunProgram} (hd : ¬ Disordered p.windows) (hb : ¬ p.OutOfBounds) :
    p.windowVerdict = if 8192 < (p.windows.map Window.bytes).sum then .payloadSize else .none := by
  rw [← windowsInOrder_eq_false_iff] at hd
  rw [outOfBounds_iff_any] at hb
  rw [RunProgram.windowVerdict, if_neg (by simpa using hd), if_neg hb]

theorem RunProgram.windowVerdict_of_tooLarge {p : RunProgram} (hd : ¬ Disordered p.windows) (hb : ¬ p.OutOfBounds)
    (hl : p.TooLarge) : p.windowVerdict = .payloadSize :=
  (windowVerdict_of_bounded hd hb).trans (if_pos hl)

theorem RunProgram.windowVerdict_of_fits {p : RunProgram} (hd : ¬ Disordered p.windows) (hb : ¬ p.OutOfBounds)
    (hl : ¬ p.TooLarge) : p.windowVerdict = .none :=
  (windowVerdict_of_bounded hd hb).trans (if_neg hl)

/-- Each of the three reasons is given exactly when its test fails and those before it do not. -/
theorem RunProgram.windowVerdict_iff (p : RunProgram) :
    (p.windowVerdict = .windowOrder ↔ Disordered p.windows)
      ∧ (p.windowVerdict = .windowBounds ↔ ¬ Disordered p.windows ∧ p.OutOfBounds)
      ∧ (p.windowVerdict = .payloadSize ↔ ¬ Disordered p.windows ∧ ¬ p.OutOfBounds ∧ p.TooLarge) := by
  by_cases hd : Disordered p.windows
  · simp [windowVerdict_of_disordered hd, hd]
  by_cases hb : p.OutOfBounds
  · simp [windowVerdict_of_outOfBounds hd hb, hd, hb]
  by_cases hl : p.TooLarge
  · simp [windowVerdict_of_tooLarge hd hb hl, hd, hb, hl]
  · simp [windowVerdict_of_fits hd hb hl, hd, hb, hl]

/-- The verdicts of a program that passes tests 2 to 10. -/
def windowVerdicts : List RejectReason := [.none, .windowOrder, .windowBounds, .payloadSize]

/-- A test whose reason is not among the verdicts in question has been passed, so the tests behind it decide. -/
theorem eq_of_ite_mem {α : Type} {c : Prop} [Decidable c] {r rest v : α} {l : List α} (hr : r ∉ l)
    (hrest : rest ∈ l → rest = v) (h : (if c then r else rest) ∈ l) : (if c then r else rest) = v := by
  by_cases hc : c
  · rw [if_pos hc] at h
    exact absurd h hr
  · rw [if_neg hc] at h ⊢
    exact hrest h

/-- A program that passes the nine tests before them is judged by the window tests alone. -/
theorem RunProgram.validate_eq_windowVerdict (p : RunProgram) :
    p.validate ∈ windowVerdicts → p.validate = p.windowVerdict := by
  simp only [RunProgram.validate]
  iterate 9 refine eq_of_ite_mem (by decide) ?_
  exact fun _ => rfl

/-- Settles O39: tests 2 to 10 are passed, and each window test means what R53 says. -/
theorem windowTests : Obligations.WindowTests := by
  intro p disordered limit outOfBounds tooLarge h
  have hmem : p.validate ∈ windowVerdicts := by simpa [windowVerdicts] using h
  rw [p.validate_eq_windowVerdict hmem]
  exact p.windowVerdict_iff

end Sys2Proof.Machine
end

section
/-! PROOFS. The grant (R177 to R179): the class it goes to, the channel a class C grant goes to, and what it leaves. -/

namespace Sys2Proof.Machine

/-! ## Class C and the guard count -/

/-- A class C request waits. -/
def Port.Bursts (p : Port) : Prop := ∃ ch, p.classC.get ch = true

theorem mem_allChans (ch : Chan) : ch ∈ allChans := by cases ch <;> decide

@[simp] theorem anyClassC_iff (p : Port) : p.anyClassC = true ↔ p.Bursts := by
  simp [Port.anyClassC, Port.Bursts, mem_allChans]

theorem guardAfter_of_bursts {p : Port} (h : p.Bursts) : p.guardAfter = min 8 (p.guard + 1) :=
  if_pos ((anyClassC_iff p).2 h)

theorem guardAfter_of_not_bursts {p : Port} (h : ¬ p.Bursts) : p.guardAfter = 0 :=
  if_neg (mt (anyClassC_iff p).1 h)

/-- R178: the examination order names the channels one after another, from the one given. -/
theorem chansFrom_eq_map (ch : Chan) : chansFrom ch = (List.range 8).map fun k => Nat.repeat chanAfter k ch := by
  cases ch <;> rfl

/-- R178: a class C grant goes to the first channel of the examination order whose request waits. -/
theorem classCChoice_eq_some {p : Port} {k : Nat} (hk : k < 8)
    (hget : p.classC.get (Nat.repeat chanAfter k p.roundRobin) = true)
    (hbefore : ∀ j, j < k → p.classC.get (Nat.repeat chanAfter j p.roundRobin) = false) :
    p.classCChoice = some (Nat.repeat chanAfter k p.roundRobin) := by
  have hfirst : (List.range 8).find? (p.classC.get ∘ fun j => Nat.repeat chanAfter j p.roundRobin) = some k :=
    List.find?_range_eq_some.2 ⟨hget, List.mem_range.2 hk, fun j hj => by simp [hbefore j hj]⟩
  rw [Port.classCChoice, chansFrom_eq_map, List.find?_map, hfirst]
  rfl

/-! ## Which request is chosen -/

/-- R177: a choice among nothing is none. -/
theorem choice_of_not_waiting {p : Port} (h : p.Sorted) (hw : ∀ r, p.waiting r = false) : p.choice = none := by
  cases hc : p.choice with
  | none => rfl
  | some r =>
    have hq : p.waiting r = true := by rw [Port.waiting, choice_queued p h hc, Bool.true_or]
    exact absurd hq (by simp [hw r])

theorem choice_of_classA {p : Port} {r : Request} {rest : List Request} (hg : ¬ (p.guard = 8 ∧ p.Bursts))
    (ha : p.classA = r :: rest) : p.choice = some r := by
  simp [Port.choice, hg, ha]

theorem choice_of_classB {p : Port} {r : Request} {rest : List Request} (hg : ¬ (p.guard = 8 ∧ p.Bursts))
    (ha : p.classA = []) (hb : p.classB = r :: rest) : p.choice = some r := by
  simp [Port.choice, hg, ha, hb]

/-- R177, R179: class C is chosen at a full guard count, and when the queues of the other classes are empty. -/
theorem choice_of_classC {p : Port} {ch : Chan} (hg : p.guard = 8 ∨ p.classA = [] ∧ p.classB = [])
    (hc : p.classCChoice = some ch) : p.choice = some (.recordBurst ch) := by
  have hb : p.Bursts := ⟨ch, classCChoice_queued p hc⟩
  rcases hg with hg | ⟨ha, hempty⟩
  · simp [Port.choice, hg, hb, hc]
  · simp [Port.choice, ha, hempty, hc]

/-! ## What the grant leaves -/

theorem depart_of_classA (p : Port) {r : Request} (h : r.classOf = .a) :
    p.depart r = { p with classA := p.classA.erase r, guard := p.guardAfter } := by
  unfold Port.depart
  split
  · cases h
  · exact if_pos h

theorem depart_of_classB (p : Port) {r : Request} (h : r.classOf = .b) :
    p.depart r = { p with classB := p.classB.erase r, guard := p.guardAfter } := by
  unfold Port.depart
  split
  · cases h
  · exact if_neg (by rw [h]; decide)

/-- R177, R180: at an idle port the request chosen leaves its place, is issued, and is timed. -/
theorem grant_of_choice {s : State} {r : Request} (hidle : s.port.inFlight = none) (hc : s.port.choice = some r) :
    s.grant = { s with port := { s.port.depart r with inFlight := some (s.transaction r), timer := some 0 } } := by
  simp only [State.grant, State.grantAs, hidle, hc]

theorem grant_classA {s : State} (hs : s.port.Sorted) (hidle : s.port.inFlight = none)
    (hg : ¬ (s.port.guard = 8 ∧ s.port.Bursts)) {r : Request} {rest : List Request} (ha : s.port.classA = r :: rest) :
    s.grant = { s with port := { s.port with
      classA := rest, guard := s.port.guardAfter, inFlight := some (s.transaction r), timer := some 0 } } := by
  have hr : r.classOf = .a := hs.1 r (by simp [ha])
  rw [grant_of_choice hidle (choice_of_classA hg ha), depart_of_classA _ hr, ha, List.erase_cons_head]

theorem grant_classB {s : State} (hs : s.port.Sorted) (hidle : s.port.inFlight = none)
    (hg : ¬ (s.port.guard = 8 ∧ s.port.Bursts)) (ha : s.port.classA = []) {r : Request} {rest : List Request}
    (hb : s.port.classB = r :: rest) :
    s.grant = { s with port := { s.port with
      classB := rest, guard := s.port.guardAfter, inFlight := some (s.transaction r), timer := some 0 } } := by
  have hr : r.classOf = .b := hs.2 r (by simp [hb])
  rw [grant_of_choice hidle (choice_of_classB hg ha hb), depart_of_classB _ hr, hb, List.erase_cons_head]

/-- Settles O29: each clause names the request that the rules choose, and the grant issues that one. -/
theorem grant : Obligations.Grant := by
  intro s hs p bursts
  refine ⟨?nothing, ?classA, ?classB, ?classC⟩
  case nothing =>
    exact fun h => grantAs_of_granted s _ (h.imp_right (choice_of_not_waiting hs))
  case classA =>
    intro hidle hg r rest ha
    exact ⟨p.guardAfter, grant_classA hs hidle hg ha, guardAfter_of_bursts, guardAfter_of_not_bursts⟩
  case classB =>
    intro hidle hg ha r rest hb
    exact ⟨p.guardAfter, grant_classB hs hidle hg ha hb, guardAfter_of_bursts, guardAfter_of_not_bursts⟩
  case classC =>
    intro hidle hg k hk hget hbefore ch
    exact grant_of_choice hidle (choice_of_classC hg (classCChoice_eq_some hk hget hbefore))

end Sys2Proof.Machine
end

section
/-! PROOFS. The interrupt line (R199): the two things that drive it, and the pending bits that a mask lets through. -/

namespace Sys2Proof.Machine

/-! ## Unmasked pending bits -/

theorem ne_zero_iff_exists_getLsbD {w : Nat} {x : BitVec w} : x ≠ 0 ↔ ∃ i, i < w ∧ x.getLsbD i = true := by
  rw [ne_eq, BitVec.eq_of_getLsbD_eq_iff]
  simp

theorem getLsbD_unmasked {w i : Nat} (pend mask : BitVec w) (hi : i < w) :
    (pend &&& ~~~mask).getLsbD i = true ↔ pend.getLsbD i = true ∧ mask.getLsbD i = false := by
  simp [hi]

theorem unmasked_ne_zero_iff {w : Nat} (pend mask : BitVec w) :
    pend &&& ~~~mask ≠ 0 ↔ ∃ i, i < w ∧ pend.getLsbD i = true ∧ mask.getLsbD i = false := by
  rw [ne_zero_iff_exists_getLsbD]
  exact exists_congr fun i => and_congr_right (getLsbD_unmasked pend mask)

/-! ## What drives the line -/

theorem irqLow_iff (r : Registers) : r.irqLow = true ↔ r.irqen = true ∧ r.irqPend &&& ~~~r.irqMask ≠ 0 := by
  simp only [Registers.irqLow, Bool.and_eq_true, bne_iff_ne]

/-- Settles O12: the line is low when interrupts are enabled and the pending bits without the masked ones are not all 0. -/
theorem irqLine : Obligations.IrqLine := by
  intro s
  calc s.irqLow = true
      ↔ s.regs.irqen = true ∧ s.regs.irqPend &&& ~~~s.regs.irqMask ≠ 0 := irqLow_iff s.regs
    _ ↔ _ := and_congr_right' (unmasked_ne_zero_iff s.regs.irqPend s.regs.irqMask)

end Sys2Proof.Machine
end

section
/-! PROOFS. What a command is: a full reset, an effect while RSTN is high, or the answer to a transaction; and what follows of
every command: it completes, it keeps the queue of commands, and it keeps the invariant. -/

namespace Sys2Proof.Machine

variable {s t : State} {p : Chan → Prop}

/-- A test stated another way chooses the same branch. -/
theorem ite_of_iff {α : Sort _} {P Q : Prop} [Decidable P] [Decidable Q] {a b : α} (h : P ↔ Q) :
    (if P then a else b) = if Q then a else b := by
  by_cases hq : Q
  · rw [if_pos hq, if_pos (h.2 hq)]
  · rw [if_neg hq, if_neg fun e => hq (h.1 e)]

/-! ## The queue of commands stays as it is -/

@[simp] theorem enterState_pending (s : State) (d : DeviceState) : (s.enterState d).pending = s.pending :=
  (announce_keeps { s with device := d }).pending

@[simp] theorem enterStarting_pending (s : State) : s.enterStarting.pending = s.pending := rfl

@[simp] theorem enterDraining_pending (s : State) : s.enterDraining.pending = s.pending := by
  unfold State.enterDraining State.drainTest
  rw [modTest_pending, (drainAll_keeps _).pending, enterState_pending]; rfl

/-- R192: the state in STOPPED before the look at CTRL.RUN, every monitor having stopped evaluating. -/
def State.stopped (s : State) : State :=
  ((s.enterState .stopped).raise .drained).forChans fun ch t => t.modMonitor ch fun m => { m with evaluating := false }

theorem stopped_keeps (s : State) : Keeps (fun _ => False) ((s.enterState .stopped).raise .drained) s.stopped :=
  forChans_keeps _ _ fun ch u => (modMonitor_keeps u ch _).none

theorem enterStopped_eq (s : State) : s.enterStopped = if s.regs.run then s.stopped.enterStarting else s.stopped := by
  have hr : s.stopped.regs.run = s.regs.run := by
    rw [(stopped_keeps s).regs]; exact congrArg (·.run) (enterState_regs s .stopped)
  rw [← hr]; rfl

@[simp] theorem stopped_pending (s : State) : s.stopped.pending = s.pending :=
  (stopped_keeps s).pending.trans (enterState_pending s .stopped)

@[simp] theorem enterStopped_pending (s : State) : s.enterStopped.pending = s.pending := by
  rw [enterStopped_eq]; split <;> simp

@[simp] theorem drainCheck_pending (s : State) : s.drainCheck.pending = s.pending := by
  unfold State.drainCheck; split <;> simp

/-- The held run starts that are due touch the channels, the Event Unit and the requests. -/
theorem settleAll_keeps (s : State) : Keeps (fun _ => False) s (s.forChans fun ch t => t.settleChannel ch) :=
  forChans_keeps s _ fun ch u => (settleChannel_keeps u ch).none

@[simp] theorem settle_pending (s : State) : s.settle.pending = s.pending :=
  (drainCheck_pending _).trans (settleAll_keeps s).pending

@[simp] theorem followRun_pending (s : State) : s.followRun.pending = s.pending := by
  unfold State.followRun; split <;> simp

@[simp] theorem spoilInFlight_pending (s : State) : s.spoilInFlight.pending = s.pending := by
  unfold State.spoilInFlight; split <;> rfl

@[simp] theorem enterFaulted_pending (s : State) (c : FaultCode) : (s.enterFaulted c).pending = s.pending :=
  spoilInFlight_pending s

@[simp] theorem enterRunning_pending (s : State) : s.enterRunning.pending = s.pending :=
  (enterRunning_keeps s).pending.trans (enterState_pending s .running)

@[simp] theorem startPoll_pending (s : State) : s.startPoll.pending = s.pending := rfl

@[simp] theorem startSession_pending (s : State) (h : Header) : (s.startSession h).pending = s.pending := rfl

@[simp] theorem headerDone_pending (s : State) (b : List Byte) : (s.headerDone b).pending = s.pending := by
  unfold State.headerDone; dsimp only
  split
  · split
    · rw [followRun_pending, startPoll_pending, enterRunning_pending, startSession_pending]
    · exact enterFaulted_pending s _
  · rfl

@[simp] theorem markDone_pending (s : State) (ch : Chan) (v : Word) : (s.markDone ch v).pending = s.pending := by
  unfold State.markDone State.captureNotice; dsimp only
  split
  · rfl
  · split <;> rfl

@[simp] theorem journalMarkDone_pending (s : State) (v : Word) : (s.journalMarkDone v).pending = s.pending := by
  unfold State.journalMarkDone State.journalNotice; dsimp only
  split
  · rfl
  · split <;> rfl

@[simp] theorem rejectTest_pending (s : State) (g : Word) (r : TestReject) : (s.rejectTest g r).pending = s.pending :=
  (hand_keeps _ _ _).pending

@[simp] theorem judgeBlock_pending (s : State) (q : TestSettings) : (s.judgeBlock q).pending = s.pending := by
  unfold State.judgeBlock State.adoptTest
  split
  · exact (hand_keeps _ _ _).pending
  · exact rejectTest_pending s _ _

@[simp] theorem sampleDone_pending (s : State) (a : Dword) (g : Word) : (s.sampleDone a g).pending = s.pending := by
  unfold State.sampleDone
  split
  · split
    · rfl
    · exact rejectTest_pending s _ _
  · rfl

@[simp] theorem blockFetched_pending (s : State) (b : Option (List Byte)) : (s.blockFetched b).pending = s.pending := by
  unfold State.blockFetched; dsimp only
  split
  · rfl
  · split
    · split
      · exact rejectTest_pending _ _ _
      · split
        · exact (hand_keeps _ _ _).pending
        · exact judgeBlock_pending _ _
    · rfl

@[simp] theorem testBitClock_pending (s : State) : s.testBitClock.pending = s.pending := by
  unfold State.testBitClock State.testStatusChanged; dsimp only
  split
  · rfl
  · split
    · rw [modTest_pending, (deliverTestBit_keeps s _).pending]
    · rw [request_pending, modTest_pending, (deliverTestBit_keeps s _).pending]

@[simp] theorem failed_pending (s : State) (w : Transaction) : (s.failed w).pending = s.pending := by
  unfold State.failed
  split
  · exact (burstFailed_keeps s _ _).pending
  · exact (fetchFailed_keeps s _).pending
  · exact (fetchFailed_keeps s _).pending
  · exact blockFetched_pending s _
  · exact (blockFailed_keeps s _).pending
  · exact (reReadDone_keeps s _ _).pending
  · exact (journalReReadDone_keeps s _).pending
  · exact enterFaulted_pending s _

@[simp] theorem succeeded_pending (s : State) (w : Transaction) (b : List Byte) : (s.succeeded w b).pending = s.pending := by
  unfold State.succeeded
  split
  · exact headerDone_pending s b
  · rfl
  · exact (slotReadDone_keeps s _ _).pending
  · exact (fixedDone_keeps s _ _).pending
  · exact (tailDone_keeps s _ _).pending
  · rfl
  · rfl
  · exact (reReadDone_keeps s _ _).pending
  · exact (burstDone_keeps s _).pending
  · exact markDone_pending s _ _
  · exact (journalRecordDone_keeps s).pending
  · exact (journalReReadDone_keeps s _).pending
  · exact journalMarkDone_pending s _
  · exact (blockDone_keeps s _).pending
  · rfl
  · exact sampleDone_pending s _ _
  · exact blockFetched_pending s _
  · rfl

@[simp] theorem complete_pending (s : State) (w : Transaction) (r : ReadResponse) : (s.complete w r).pending = s.pending := by
  have hb : (s.freePort.bytesWritten w r).pending = s.pending := by cases r <;> rfl
  unfold State.complete State.deliver
  rw [regrant_pending, settle_pending, ← hb]
  split
  · rfl
  · cases r
    · exact succeeded_pending _ w _
    · exact failed_pending _ w

@[simp] theorem timeOut_pending (s : State) : s.timeOut.pending = s.pending := by
  unfold State.timeOut
  split
  · rfl
  · exact complete_pending s _ _

/-- R73, R138, R161: the reads of a NUDGE write. -/
theorem nudgeAll_keeps (s : State) (c : Byte) : KeepsChans s (s.forChans fun ch u => u.nudgeChannel c ch) :=
  forChans_keepsChans s _ fun ch u => by
    unfold State.nudgeChannel
    split
    · exact sampleSlot_keeps u ch
    · exact .refl _ u

@[simp] theorem requestRead_pending (s : State) (r : Request) : (s.requestRead r).pending = s.pending :=
  (requestRead_keeps s r).pending

@[simp] theorem nudge_pending (s : State) (c : Byte) (j t i : Bool) : (s.nudge c j t i).pending = s.pending := by
  unfold State.nudge State.injectTest State.sampleTest; dsimp only
  split
  · rw [← (nudgeAll_keeps s c).pending]
    cases j <;> cases t <;> cases i <;> simp
  · rfl

@[simp] theorem writeRegister_pending (s : State) (r : Register) (v : Word) : (s.writeRegister r v).pending = s.pending := by
  cases r <;> simp only [State.writeRegister]
  case ctrl =>
    unfold State.writeCtrlWord State.writeCtrl
    split
    · rfl
    · exact followRun_pending _
  case cpbaseLo => unfold State.writeCpbaseLo; split <;> rfl
  case cpbaseHi => unfold State.writeCpbaseHi; split <;> rfl
  case nudge => exact nudge_pending s _ _ _ _
  case irqPend => rfl
  case irqMask => rfl

@[simp] theorem writeWindow_pending (s : State) (o : Nat) (l : BitVec 4) (v : Word) :
    (s.writeWindow o l v).pending = s.pending := by
  unfold State.writeWindow
  split
  · rfl
  · exact writeRegister_pending s _ v

/-- R62, R201: the ARMED channels that a STRT edge starts. -/
theorem strtChannel_keeps (s : State) (ch : Chan) : KeepsBut ch s (s.strtChannel ch) := by
  unfold State.strtChannel
  split
  · exact startFraming_keeps s ch _
  · exact .refl _ s

theorem strtAll_keeps (s : State) : Keeps (fun _ => False) s (s.forChans fun ch t => t.strtChannel ch) :=
  forChans_keeps s _ fun ch u => (strtChannel_keeps u ch).none

@[simp] theorem strtEdge_pending (s : State) : s.strtEdge.pending = s.pending := by
  unfold State.strtEdge State.strtTimebase
  split
  · exact (strtAll_keeps _).pending.trans (hand_keeps s _ _).pending
  · rfl

theorem pollChannel_keeps (s : State) (ch : Chan) : KeepsChans s (s.pollChannel ch) := by
  unfold State.pollChannel
  split
  · exact sampleSlot_keeps s ch
  · exact .refl _ s

/-- R72, R138, R161: the reads of an idle poll. -/
theorem idlePollExpired_keeps (s : State) : KeepsChans s.startPoll s.idlePollExpired :=
  ((forChans_keepsChans _ _ fun ch u => pollChannel_keeps u ch).trans (requestRead_keeps _ _)).trans (requestRead_keeps _ _)

@[simp] theorem idlePollExpired_pending (s : State) : s.idlePollExpired.pending = s.pending :=
  (idlePollExpired_keeps s).pending

/-- An operation on each channel in turn that keeps the commands that wait. -/
theorem forChans_pending (s : State) (f : Chan → State → State) (h : ∀ c u, (f c u).pending = u.pending) :
    (s.forChans f).pending = s.pending := by
  unfold State.forChans
  induction allChans generalizing s with
  | nil => rfl
  | cons c rest ih => exact (ih (f c s)).trans (h c s)

@[simp] theorem expire_pending (s : State) : s.expire.pending = s.pending := by
  have hgap := forChans_pending s (fun ch u => if (s.chan ch).gapReached then u.gapExpired ch else u) fun c u => by
    split
    · exact (gapExpired_keeps u c).pending
    · rfl
  have hcap : ∀ u : State, (u.forChans fun ch u =>
      if s.holdoffReached (s.chan ch).wb.holdoff then u.captureNotice ch else u).pending = u.pending :=
    fun u => forChans_pending u _ fun c v => by split <;> rfl
  have hjournal : ∀ u : State, (if s.holdoffReached s.events.holdoff then u.journalNotice else u).pending = u.pending :=
    fun u => by split <;> rfl
  have hpoll : ∀ u : State, (if s.idlePollReached then u.idlePollExpired else u).pending = u.pending :=
    fun u => by split <;> simp
  have hresponse : ∀ u : State, (if s.responseReached then u.timeOut else u).pending = u.pending :=
    fun u => by split <;> simp
  unfold State.expire; dsimp only
  rw [hresponse, hpoll, hjournal, hcap, hgap]

@[simp] theorem tick_pending (s : State) : s.tick.pending = s.pending := by
  unfold State.tick; rw [arbitrate_pending, expire_pending]; rfl

@[simp] theorem lineBit_pending (s : State) (ch : Chan) (bit : Bool) : (s.lineBit ch bit).pending = s.pending := by
  unfold State.lineBit
  split
  · rw [arbitrate_pending, (bitClock_keeps s ch bit).pending]
  · rfl

/-! ## What a command is -/

/-- A command with an effect while RSTN is high, and none while it is low (log 16). Its effect keeps the invariant and the queue of
commands. -/
def Instr.Acts (c : Instr) : Prop :=
  ∃ f : State → State, (∀ s, exec c s = s.live f) ∧ (∀ s, State.Inv s → (f s).Inv) ∧ ∀ s, (f s).pending = s.pending

/-- A command that answers a request's transaction, or has no effect (log 2); the bytes it brings are those of the answer. -/
def Instr.Answers (c : Instr) : Prop :=
  ∃ q r, (∀ s, exec c s = s.respond q r ∨ exec c s = .next s) ∧ (q.isWrite = true ∨ broughtBytes c = responseBytes r)

theorem acts_of_eq {c : Instr} {f : State → State} (he : ∀ s, exec c s = s.live f) (hi : ∀ s, State.Inv s → (f s).Inv)
    (hp : ∀ s, (f s).pending = s.pending) : Instr.Acts c := ⟨f, he, hi, hp⟩

/-- An effect that comes about only when it is due. -/
theorem acts_when_due {c : Instr} (due : State → Prop) [DecidablePred due] {f : State → State}
    (he : ∀ s, exec c s = s.live fun t => if due t then f t else t) (hi : ∀ s, State.Inv s → due s → (f s).Inv)
    (hp : ∀ s, (f s).pending = s.pending) : Instr.Acts c :=
  acts_of_eq he
    (fun s k => by
      by_cases h : due s
      · rw [if_pos h]; exact hi s k h
      · rw [if_neg h]; exact k)
    fun s => by split <;> simp [hp]

/-- The answer to a write brings no bytes. -/
theorem answers_write {c : Instr} {q : Request} {r : WriteResponse} (hq : q.isWrite = true)
    (he : ∀ s, exec c s = s.respond q (WriteResponse.toRead r)) : Instr.Answers c := ⟨q, WriteResponse.toRead r, fun s => .inl (he s), .inl hq⟩

theorem answers_read {c : Instr} {q : Request} {r : ReadResponse} (hb : broughtBytes c = responseBytes r)
    (he : ∀ s, exec c s = s.respond q r) : Instr.Answers c := ⟨q, r, fun s => .inl (he s), .inr hb⟩

theorem lineBit_inv (k : s.Inv) (ch : Chan) (bit : Bool) : (s.lineBit ch bit).Inv := by
  unfold State.lineBit
  split
  · exact ((bitClock_keeps s ch bit).sound k.toSound).arbitrated
  · exact k

theorem writeWindow_sound (k : s.Sound) (o : Nat) (l : BitVec 4) (v : Word) : (s.writeWindow o l v).Sound := by
  unfold State.writeWindow
  split
  · exact k
  · exact writeRegister_sound k _ v

/-- A state in which no request arrives and the port is as it was. -/
theorem State.Sound.inv_of_port (k : t.Sound) (hs : s.Inv) (hp : t.port = s.port) : t.Inv :=
  { k with
    granted := by rw [hp]; exact hs.granted
    arrived := by rw [hp]; exact hs.arrived }

/-- A reset leaves the port empty. -/
theorem State.Sound.inv_of_reset (k : t.Sound) (hp : t.port = .reset) : t.Inv :=
  { k with
    granted := by rw [hp]; exact .inr rfl
    arrived := by rw [hp]; rfl }

theorem fullReset_inv (k : s.Inv) (held : Bool) : (s.fullReset held).Inv := (fullReset_sound k.toTidy held).inv_of_reset rfl

/-- R170: an inject alone makes no request. -/
theorem nudge_inject (s : State) : s.nudge 0 false false true = if s.device = .running then s.injectTest else s := by
  have h : ∀ u : State, (u.forChans fun ch v => v.nudgeChannel 0 ch) = u := fun u => by
    simp [State.forChans, State.nudgeChannel, allChans]
  simp only [State.nudge, h]; rfl

/-- Every command is a full reset, or acts while RSTN is high, or answers a transaction. -/
theorem instr_cases (c : Instr) : (∃ phase, c = .fullReset phase) ∨ Instr.Acts c ∨ Instr.Answers c := by
  cases c
  case fullReset phase => exact .inl ⟨phase, rfl⟩
  case softReset run irqen =>
    exact .inr (.inl (acts_of_eq (fun s => exec_softReset s run irqen) (fun _ k => (softReset_sound k.toTidy).inv_of_reset rfl)
      fun _ => rfl))
  case ctrlRun b =>
    exact .inr (.inl (acts_of_eq (fun s => exec_ctrlRun s b) (fun _ k => (writeCtrl_sound k.toTidy _ _).arbitrated)
      fun _ => (arbitrate_pending _).trans (followRun_pending _)))
  case ctrlIrqen b =>
    exact .inr (.inl (acts_of_eq (fun s => exec_ctrlIrqen s b) (fun _ k => (writeCtrl_sound k.toTidy _ _).arbitrated)
      fun _ => (arbitrate_pending _).trans (followRun_pending _)))
  case registerWrite o l v =>
    exact .inr (.inl (acts_of_eq (fun s => exec_registerWrite s o l v) (fun _ k => (writeWindow_sound k.toSound o l v).arbitrated)
      fun _ => by simp))
  case irqPendWrite v =>
    exact .inr (.inl (acts_of_eq (fun s => exec_irqPendWrite s v)
      (fun _ k => (writeRegister_sound k.toSound .irqPend v).inv_of_port k rfl) fun _ => rfl))
  case irqMaskWrite v =>
    exact .inr (.inl (acts_of_eq (fun s => exec_irqMaskWrite s v)
      (fun _ k => (writeRegister_sound k.toSound .irqMask v).inv_of_port k rfl) fun _ => rfl))
  case nudgeSlotSample c =>
    exact .inr (.inl (acts_of_eq (fun s => exec_nudgeSlotSample s c) (fun _ k => (nudge_sound k.toSound _ _ _ _).arbitrated)
      fun _ => by simp))
  case nudgeJournalReread =>
    exact .inr (.inl (acts_of_eq exec_nudgeJournalReread (fun _ k => (nudge_sound k.toSound _ _ _ _).arbitrated)
      fun _ => by simp))
  case nudgeTestSample =>
    exact .inr (.inl (acts_of_eq exec_nudgeTestSample (fun _ k => (nudge_sound k.toSound _ _ _ _).arbitrated)
      fun _ => by simp))
  case nudgeTestInject =>
    refine .inr (.inl (acts_of_eq exec_nudgeTestInject (fun s k => (nudge_sound k.toSound _ _ _ _).inv_of_port k ?_)
      fun _ => by simp))
    rw [nudge_inject]; split <;> rfl
  case strtRisingEdge =>
    exact .inr (.inl (acts_of_eq exec_strtRisingEdge (fun _ k => (strtEdge_sound k.toSound).arbitrated) fun _ => by simp))
  case bitClock ch b =>
    exact .inr (.inl (acts_of_eq (fun s => exec_bitClock s ch b) (fun _ k => lineBit_inv k ch b) fun _ => by simp))
  case checkDecision ch b =>
    exact .inr (.inl (acts_when_due _ (fun s => exec_checkDecision s ch b) (fun _ k _ => lineBit_inv k ch b) fun _ => by simp))
  case lockDecision ch b =>
    exact .inr (.inl (acts_when_due _ (fun s => exec_lockDecision s ch b) (fun _ k _ => lineBit_inv k ch b) fun _ => by simp))
  case latePositionDecision ch b =>
    exact .inr (.inl (acts_when_due _ (fun s => exec_latePositionDecision s ch b) (fun _ k _ => lineBit_inv k ch b)
      fun _ => by simp))
  case quietEntry ch b =>
    exact .inr (.inl (acts_when_due _ (fun s => exec_quietEntry s ch b) (fun _ k _ => lineBit_inv k ch b) fun _ => by simp))
  case activeEntry ch b =>
    exact .inr (.inl (acts_when_due _ (fun s => exec_activeEntry s ch b) (fun _ k _ => lineBit_inv k ch b) fun _ => by simp))
  case quietWindowEnd ch b =>
    exact .inr (.inl (acts_when_due _ (fun s => exec_quietWindowEnd s ch b) (fun _ k _ => lineBit_inv k ch b) fun _ => by simp))
  case noclockRecovery ch b =>
    exact .inr (.inl (acts_when_due _ (fun s => exec_noclockRecovery s ch b) (fun _ k _ => lineBit_inv k ch b)
      fun _ => by simp))
  case gapTimerExpiry ch =>
    exact .inr (.inl (acts_when_due _ (fun s => exec_gapTimerExpiry s ch)
      (fun s k _ => ((gapExpired_keeps s ch).sound k.toSound).arbitrated)
      fun s => (arbitrate_pending _).trans (gapExpired_keeps s ch).pending))
  case idlePollExpiry =>
    exact .inr (.inl (acts_when_due _ exec_idlePollExpiry (fun _ k _ => (idlePollExpired_sound k.toSound).arbitrated)
      fun _ => by simp))
  case captureHoldoffExpiry ch =>
    exact .inr (.inl (acts_when_due _ (fun s => exec_captureHoldoffExpiry s ch)
      (fun _ k _ => (captureNotice_sound k.toSound ch).inv_of_port k rfl) fun _ => rfl))
  case journalHoldoffExpiry =>
    exact .inr (.inl (acts_when_due _ exec_journalHoldoffExpiry
      (fun _ k _ => (journalNotice_sound k.toSound).inv_of_port k rfl) fun _ => rfl))
  case responseTimeout =>
    refine .inr (.inl (acts_of_eq exec_responseTimeout (fun s k => ?_) fun _ => by simp))
    unfold State.timeOut
    split
    · exact k
    · exact complete_inv k.toSound _ _
  case drainEnd =>
    refine .inr (.inl (acts_when_due (fun s => s.device = .draining ∧ s.allSettled = true) exec_drainEnd (fun s k h => ?_)
      fun _ => by simp))
    refine (enterStopped_sound k.toTidy (k.unfaulted.resolve_left ?_)).arbitrated
    rw [h.1]; exact DeviceState.noConfusion
  case writebackSettled ch =>
    exact .inr (.inl (acts_when_due _ (fun s => exec_writebackSettled s ch)
      (fun s k _ => ((takeHeld_keeps s ch).sound k.toSound).arbitrated)
      fun s => (arbitrate_pending _).trans (takeHeld_keeps s ch).pending))
  case testSourceBitClock =>
    exact .inr (.inl (acts_of_eq exec_testSourceBitClock (fun _ k => (testBitClock_sound k.toSound).arbitrated) fun _ => by simp))
  case testFrameStart =>
    exact .inr (.inl (acts_when_due _ exec_testFrameStart (fun _ k _ => (testBitClock_sound k.toSound).arbitrated)
      fun _ => by simp))
  case rateErrorInsertion =>
    exact .inr (.inl (acts_when_due _ exec_rateErrorInsertion (fun _ k _ => (testBitClock_sound k.toSound).arbitrated)
      fun _ => by simp))
  case syncCorruption =>
    exact .inr (.inl (acts_when_due _ exec_syncCorruption (fun _ k _ => (testBitClock_sound k.toSound).arbitrated)
      fun _ => by simp))
  case timebaseTick => exact .inr (.inl (acts_of_eq exec_timebaseTick (fun _ k => tick_inv k.toSound) tick_pending))
  case lateResponse r => exact .inr (.inr ⟨.mirrorWrite, r, fun _ => .inr rfl, .inl rfl⟩)
  case programTorn ch r =>
    refine .inr (.inr ⟨.fetchTail ch, r, fun s => ?_, .inr rfl⟩)
    by_cases h : s.tornDue ch r = true
    · exact .inl (if_pos h)
    · exact .inr (if_neg h)
  case headerReadComplete r => exact .inr (.inr (answers_read rfl fun _ => rfl))
  case slotReadComplete ch r => exact .inr (.inr (answers_read rfl fun _ => rfl))
  case programFetchFixedComplete ch r => exact .inr (.inr (answers_read rfl fun _ => rfl))
  case programFetchTailComplete ch r => exact .inr (.inr (answers_read rfl fun _ => rfl))
  case reReadComplete ch r => exact .inr (.inr (answers_read rfl fun _ => rfl))
  case journalReReadComplete r => exact .inr (.inr (answers_read rfl fun _ => rfl))
  case testSampleReadComplete r => exact .inr (.inr (answers_read rfl fun _ => rfl))
  case blockFetchComplete r => exact .inr (.inr (answers_read rfl fun _ => rfl))
  all_goals exact .inr (.inr (answers_write rfl fun _ => rfl))

/-! ## What follows of every command -/

/-- A response answers a next state that keeps the queue, or brings another number of bytes than the read in flight asked for. -/
theorem respond_cases (s : State) (q : Request) (r : ReadResponse) :
    (∃ t, s.respond q r = .next t ∧ t.pending = s.pending)
      ∨ s.respond q r = .fault .malformedResponse ∧ ∃ bytes w, r = .okay bytes ∧ s.port.inFlight = some w
        ∧ w.request = q ∧ w.request.isWrite = false ∧ bytes.length ≠ w.length := by
  unfold State.respond
  split
  · exact .inl ⟨s, rfl, rfl⟩
  · rename_i w hw
    by_cases hq : w.request = q ∧ s.resetHeld = false
    · rw [if_pos hq]
      by_cases hf : w.fits r = true
      · rw [if_pos hf]; exact .inl ⟨_, rfl, complete_pending s w r⟩
      · rw [if_neg hf]
        cases r with
        | error => exact absurd rfl hf
        | okay bytes =>
          simp only [Transaction.fits, Bool.or_eq_true, beq_iff_eq, not_or, Bool.not_eq_true] at hf
          exact .inr ⟨rfl, bytes, w, rfl, hw, hq.1, hf⟩
    · rw [if_neg hq]; exact .inl ⟨s, rfl, rfl⟩

/-- R202: while RSTN is low a response is without effect. -/
theorem respond_held (h : s.resetHeld = true) (q : Request) (r : ReadResponse) : s.respond q r = .next s := by
  unfold State.respond
  split
  · rfl
  · rw [if_neg]; rw [h]; simp

/-- Settles O2: a command with an effect completes; an answer completes unless it brings the wrong number of bytes. -/
theorem commandsComplete : Obligations.CommandsComplete := by
  intro c s
  rcases instr_cases c with ⟨phase, rfl⟩ | ⟨f, he, _, hp⟩ | ⟨q, r, he, hb⟩
  · exact .inl ⟨_, rfl, rfl⟩
  · refine .inl ⟨if s.resetHeld then s else f s, he s, ?_⟩
    split
    · rfl
    · exact hp s
  · rcases he s with he | he <;> rw [he]
    · refine (respond_cases s q r).imp_right ?_
      rintro ⟨hf, bytes, w, rfl, hw, rfl, hread, hlen⟩
      refine ⟨hf, bytes, w, ?_, hw, hread, hlen⟩
      exact hb.resolve_left (by simp [hread])
    · exact .inl ⟨s, rfl, rfl⟩

/-- Every command keeps the invariant. -/
theorem exec_inv (c : Instr) (k : s.Inv) (h : exec c s = .next t) : t.Inv := by
  rcases instr_cases c with ⟨phase, rfl⟩ | ⟨f, he, hi, _⟩ | ⟨q, r, he, _⟩
  · cases h; exact fullReset_inv k _
  · rw [he] at h
    cases h
    split
    · exact k
    · exact hi s k
  · rcases he s with he | he <;> rw [he] at h
    · exact respond_inv k q r h
    · cases h; exact k

/-- Settles O5: an idle step changes nothing, and any other runs a command, which keeps the invariant. -/
theorem stepKeepsInv : Obligations.StepKeepsInv := by
  intro s t k h
  unfold step at h
  split at h
  · cases h; exact k
  · exact exec_inv _ (k.withPending _) h

end Sys2Proof.Machine
end

section
/-! PROOFS. The queue of commands, and resets: what a step runs, what a reset leaves, and what it does to memory. -/

namespace Sys2Proof.Machine

variable {s t : State}

/-- Settles O1: by the definition of a step. -/
theorem stepRunsFront : Obligations.StepRunsFront :=
  ⟨fun c rest s h => by unfold step; rw [h], fun s h => by unfold step; rw [h]⟩

/-! ## The state after a reset -/

theorem chan_reset (ch : Chan) : State.reset.chan ch = .reset := PerChannel.get_all Channel.reset ch

/-- R184: nothing is outstanding at the port after a reset. -/
theorem reset_port_outstanding (r : Request) : State.reset.port.outstanding r = false := by
  cases r
  case recordBurst ch => cases ch <;> rfl
  all_goals rfl

theorem reset_outstanding (r : Request) : State.reset.outstanding r = false := by
  have h := reset_port_outstanding r
  have hw : State.reset.waits r = State.reset.port.waiting r := Bool.or_false _
  have hf : State.reset.flies r = State.reset.port.flying r := Bool.or_false _
  rw [State.outstanding, hw, hf]; exact h

/-- R195: every register but ID reads 0 after a reset. -/
theorem reset_readRegister (r : Register) (h : r ≠ .id) : State.reset.readRegister r = 0 := by
  cases r
  case id => exact absurd rfl h
  all_goals rfl

/-- Settles O3: the reset values, item by item. -/
theorem resetState : Obligations.ResetState := by
  refine ⟨rfl, rfl, rfl, rfl, rfl, rfl, fun ch => ?_, rfl, rfl, fun r => ⟨reset_port_outstanding r, reset_outstanding r⟩, rfl,
    rfl, rfl, rfl, rfl, reset_readRegister⟩
  rw [chan_reset]
  exact ⟨rfl, rfl, rfl, rfl, rfl, rfl⟩

theorem reset_tidy : State.reset.Tidy where
  memory := rfl
  queue := Nat.zero_le _
  guard := Nat.zero_le _
  sorted := Port.reset_sorted
  reads := fun _ h => by cases h
  made := fun _ h => absurd h List.not_mem_nil
  unfaulted := .inr ⟨rfl, rfl⟩
  base := by unfold Registers.BaseAligned; decide
  buffers := fun ch => by rw [chan_reset]; exact buffersApart_reset

/-- Settles O4: the reset state is tidy, its port is empty, and a DORMANT device with RUN at 0 has nothing to follow. -/
theorem resetInv : Obligations.ResetInv := State.Sound.inv_of_reset { reset_tidy with followed := rfl } rfl

/-! ## What a reset does to memory -/

/-- R174: where a write did not complete with OKAY, memory changes at its own bytes only. -/
theorem spoilBytes_elsewhere (s : State) (w : Transaction) (a : Nat)
    (h : ∀ i, i < w.data.length → busAddress (w.address + i) ≠ a) :
    Memory.read (s.spoilBytes w).mem a = Memory.read s.mem a :=
  Memory.read_writeAll_ne _ _ _ _ fun i hi => (h i (by rwa [freeBytes_length] at hi)).symm

theorem placeBytes_elsewhere (s : State) (w : Transaction) (a : Nat)
    (h : ∀ i, i < w.data.length → busAddress (w.address + i) ≠ a) :
    Memory.read (s.placeBytes w).mem a = Memory.read s.mem a :=
  Memory.read_writeAll_ne _ _ _ _ fun i hi => (h i hi).symm

theorem spoilInFlight_none (h : s.port.inFlight = none) : s.spoilInFlight = s := by
  unfold State.spoilInFlight; rw [h]

theorem spoilInFlight_some {w : Transaction} (h : s.port.inFlight = some w) : s.spoilInFlight = s.spoilBytes w := by
  unfold State.spoilInFlight; rw [h]

/-- R174, R202: of memory an abandoned transaction changes its own bytes only. -/
theorem spoilInFlight_mem (s : State) : (s.port.inFlight = none → s.spoilInFlight.mem = s.mem)
    ∧ ∀ w, s.port.inFlight = some w → ∀ a, (∀ i, i < w.data.length → busAddress (w.address + i) ≠ a) →
      Memory.read s.spoilInFlight.mem a = Memory.read s.mem a :=
  ⟨fun h => by rw [spoilInFlight_none h],
    fun w h a ha => by rw [spoilInFlight_some h]; exact spoilBytes_elsewhere s w a ha⟩

/-- R202, log 16: while RSTN is low a command other than its own is without effect. -/
theorem exec_held (h : s.resetHeld = true) (c : Instr) (hc : ∀ phase, c ≠ .fullReset phase) : exec c s = .next s := by
  rcases instr_cases c with ⟨phase, rfl⟩ | ⟨f, he, _, _⟩ | ⟨q, r, he, _⟩
  · exact absurd rfl (hc phase)
  · rw [he, live_held f h]
  · rcases he s with he | he <;> rw [he]
    exact respond_held h q r

/-- Settles O6: both resets abandon the transaction in flight, and every other command waits for RSTN. -/
theorem resets : Obligations.Resets := by
  intro phase run irqen s memoryKept
  refine ⟨⟨_, rfl, spoilInFlight_mem s, rfl⟩, fun h => ?_, fun c hc hp => exec_held hc c hp⟩
  refine ⟨s.softReset, ?_, spoilInFlight_mem s, ?_⟩
  · rw [exec_softReset, live_next _ h]
  · unfold State.softReset; rw [h]; rfl

end Sys2Proof.Machine
end

section
/-! PROOFS. Reads that a command makes outstanding (R73, R138, R161), and the expiries that make them or raise a notice. -/

namespace Sys2Proof.Machine

variable {s t u : State} {p q : Request → Bool}

/-! ## Reads made outstanding -/

/-- From `s` to `t` the port alone changes, and the requests that `p` names become outstanding, and no others. -/
structure MakesReads (p : Request → Bool) (s t : State) : Prop where
  state : ∃ port, t = { s with port := port }
  outstanding : ∀ r, t.port.outstanding r = (s.port.outstanding r || p r)

theorem MakesReads.refl (s : State) : MakesReads (fun _ => false) s s := ⟨⟨s.port, rfl⟩, fun _ => (Bool.or_false _).symm⟩

theorem MakesReads.trans (h : MakesReads p s t) (k : MakesReads q t u) : MakesReads (fun r => p r || q r) s u where
  state := by
    obtain ⟨a, rfl⟩ := h.state
    obtain ⟨b, rfl⟩ := k.state
    exact ⟨b, rfl⟩
  outstanding := fun r => by rw [k.outstanding, h.outstanding, Bool.or_assoc]

theorem MakesReads.congr (h : MakesReads p s t) (hpq : ∀ r, p r = q r) : MakesReads q s t := by
  rwa [← funext hpq]

/-- Reads made do not change the channels. -/
theorem MakesReads.chan (h : MakesReads p s t) (ch : Chan) : t.chan ch = s.chan ch := by
  obtain ⟨a, rfl⟩ := h.state; rfl

theorem outstanding_request (s : State) (r x : Request) :
    (s.request r).port.outstanding x = (s.port.outstanding x || x == r) := by
  simp only [Port.outstanding, request_waiting]
  have hf : (s.request r).port.flying x = s.port.flying x := rfl
  rw [hf, Bool.or_right_comm]

theorem makesReads_request (s : State) (r : Request) : MakesReads (· == r) s (s.request r) :=
  ⟨⟨_, rfl⟩, outstanding_request s r⟩

/-- R74, R117, R138, R161: a read that is outstanding already is skipped, and is outstanding in any case. -/
theorem makesReads_requestRead (s : State) (r : Request) : MakesReads (· == r) s (s.requestRead r) := by
  unfold State.requestRead
  split
  · rename_i h
    refine ⟨⟨s.port, rfl⟩, fun x => ?_⟩
    by_cases hx : x = r
    · subst hx; rw [h]; rfl
    · simp [hx]
  · exact makesReads_request s r

/-- A read made only when a bit says so. -/
theorem makesReads_if (b : Bool) (r : Request) : MakesReads (fun x => b && x == r) s (if b then s.requestRead r else s) := by
  cases b
  · exact .refl s
  · exact makesReads_requestRead s r

/-- One slot read for each channel that `b` names; `f` may look at the channels, which no read changes. -/
theorem makesReads_slots (s : State) (b : Chan → Bool) (f : Chan → State → State)
    (hf : ∀ ch u, u.chan ch = s.chan ch → f ch u = if b ch then u.requestRead (.slotRead ch) else u) :
    MakesReads (fun r => allChans.any fun ch => b ch && r == .slotRead ch) s (s.forChans f) := by
  have key : ∀ (l : List Chan) (u : State), (∀ ch, u.chan ch = s.chan ch) →
      MakesReads (fun r => l.any fun ch => b ch && r == .slotRead ch) u (l.foldl (fun t ch => f ch t) u) := by
    intro l
    induction l with
    | nil => exact fun u _ => .refl u
    | cons c rest ih =>
      intro u hu
      have h1 : MakesReads (fun r => b c && r == .slotRead c) u (f c u) := by
        rw [hf c u (hu c)]; exact makesReads_if (b c) (.slotRead c)
      exact h1.trans (ih (f c u) fun ch => (h1.chan ch).trans (hu ch))
  exact key allChans s fun _ => rfl

/-- Of the slot reads, that of each channel named and no other. -/
theorem any_slotRead (b : Chan → Bool) (ch : Chan) : (allChans.any fun c => b c && Request.slotRead ch == .slotRead c) = b ch := by
  rw [Bool.eq_iff_iff]
  simp [mem_allChans]

theorem any_not_slotRead (b : Chan → Bool) {r : Request} (h : ∀ ch, r ≠ .slotRead ch) :
    (allChans.any fun c => b c && r == .slotRead c) = false := by
  rw [List.any_eq_false]
  intro c _
  simp [h c]

/-- The reads made arrive at the port, which leaves them outstanding. -/
theorem MakesReads.arbitrate (h : MakesReads p s t) (k : t.Tidy) : MakesReads p s t.arbitrate where
  state := by
    obtain ⟨a, ha⟩ := h.state
    obtain ⟨b, hb⟩ := arbitrate_eq t
    exact ⟨b, by rw [hb, ha]⟩
  outstanding := fun r => (arbitrate_outstanding t k.made k.sorted r).trans (h.outstanding r)

/-! ## NUDGE -/

/-- R197: the reads that a NUDGE write names. -/
def nudgedReads (channels : Byte) (journal test : Bool) : Request → Bool
  | .slotRead ch => channels.getLsbD (chanNumber ch)
  | .journalReRead => journal
  | .testSample => test
  | _ => false

/-- R170: the Test Source once a NUDGE write has asked it for a single inverted bit, if it runs. -/
def TestSource.injected (t : TestSource) : TestSource := if t.state = .running then { t with inject := true } else t

theorem nudge_idle (h : s.device ≠ .running) (c : Byte) (j t i : Bool) : s.nudge c j t i = s := if_neg h

/-- R73, R138, R161, R197: a NUDGE write that asks for no inject makes the reads it names outstanding. -/
theorem nudge_reads (h : s.device = .running) (c : Byte) (j t : Bool) :
    MakesReads (nudgedReads c j t) s (s.nudge c j t false) := by
  have h1 := makesReads_slots s (fun ch => c.getLsbD (chanNumber ch)) (fun ch u => u.nudgeChannel c ch) fun _ _ _ => rfl
  have h2 := h1.trans (makesReads_if j .journalReRead)
  have h3 := h2.trans (makesReads_if t .testSample)
  have he : s.nudge c j t false = _ := if_pos h
  rw [he]
  refine h3.congr fun r => ?_
  cases r
  case slotRead ch =>
    rw [any_slotRead]
    show (_ || j && false || t && false) = _
    rw [Bool.and_false, Bool.and_false, Bool.or_false, Bool.or_false]; rfl
  all_goals
    rw [any_not_slotRead _ fun _ => Request.noConfusion]
    simp [nudgedReads]

/-- R170: the inject of a NUDGE write changes the Test Source alone. -/
theorem nudge_inject_split (h : s.device = .running) (c : Byte) (j t : Bool) :
    s.nudge c j t true = (s.nudge c j t false).modTest TestSource.injected := by
  simp only [State.nudge, if_pos h]; rfl

/-- What a NUDGE write in RUNNING leaves once its reads have arrived. -/
theorem nudge_running (k : s.Inv) (h : s.device = .running) (c : Byte) (j t i : Bool) :
    ∃ port, (s.nudge c j t i).arbitrate = { s with port := port, test := if i then s.test.injected else s.test }
      ∧ ∀ r, port.outstanding r = (s.port.outstanding r || nudgedReads c j t r) := by
  have hr := nudge_reads h c j t
  have hs : (s.nudge c j t i).Tidy := (nudge_sound k.toSound c j t i).toTidy
  have ho : ∀ r, (s.nudge c j t i).port.outstanding r = (s.port.outstanding r || nudgedReads c j t r) := by
    cases i
    · exact hr.outstanding
    · rw [nudge_inject_split h]; exact hr.outstanding
  obtain ⟨a, ha⟩ := hr.state
  obtain ⟨b, hb⟩ := arbitrate_eq (s.nudge c j t i)
  refine ⟨b, ?_, fun r => ?_⟩
  · rw [hb]
    cases i
    · rw [ha]; rfl
    · rw [nudge_inject_split h, ha]; rfl
  · rw [← ho r, ← arbitrate_outstanding _ hs.made hs.sorted r, hb]

/-- A command that makes its reads and nothing else. -/
theorem nudge_running_reads (k : s.Inv) (h : s.device = .running) (c : Byte) (j t : Bool) :
    ∃ port, (s.nudge c j t false).arbitrate = { s with port := port }
      ∧ ∀ r, port.outstanding r = (s.port.outstanding r || nudgedReads c j t r) :=
  nudge_running k h c j t false

/-- A command whose effect is none. -/
theorem live_same {f : State → State} (h : f s = s) : s.live f = .next s := by
  unfold State.live; rw [h, ite_self]

theorem State.Inv.arbitrate (k : s.Inv) : s.arbitrate = s := arbitrate_of_granted s k.granted k.arrived

/-- Settles O13: outside RUNNING nothing happens; in RUNNING the reads named are made, and an inject makes none. -/
theorem nudge : Obligations.Nudge := by
  intro channels s k
  constructor
  · intro hd
    have hn : ∀ c j t i, (s.nudge c j t i).arbitrate = s := fun c j t i => by rw [nudge_idle hd, k.arbitrate]
    have hstrt : s.strtEdge = s := if_neg hd
    exact ⟨(exec_nudgeSlotSample s channels).trans (live_same (hn _ _ _ _)),
      (exec_nudgeJournalReread s).trans (live_same (hn _ _ _ _)), (exec_nudgeTestSample s).trans (live_same (hn _ _ _ _)),
      (exec_nudgeTestInject s).trans (live_same (nudge_idle hd _ _ _ _)),
      (exec_strtRisingEdge s).trans (live_same (by rw [hstrt, k.arbitrate]))⟩
  · intro hh hd
    refine ⟨?_, ?_, ?_, ?_⟩
    · obtain ⟨port, he, ho⟩ := nudge_running_reads k hd channels false false
      refine ⟨port, by rw [exec_nudgeSlotSample, live_next _ hh, he], fun ch => ho _, fun r hr => ?_⟩
      rw [ho]
      cases r
      case slotRead ch => exact absurd rfl (hr ch)
      all_goals exact Bool.or_false _
    · obtain ⟨port, he, ho⟩ := nudge_running_reads k hd 0 true false
      refine ⟨port, by rw [exec_nudgeJournalReread, live_next _ hh, he], by rw [ho]; exact Bool.or_true _, fun r hr => ?_⟩
      rw [ho]
      cases r <;> simp_all [nudgedReads]
    · obtain ⟨port, he, ho⟩ := nudge_running_reads k hd 0 false true
      refine ⟨port, by rw [exec_nudgeTestSample, live_next _ hh, he], by rw [ho]; exact Bool.or_true _, fun r hr => ?_⟩
      rw [ho]
      cases r <;> simp_all [nudgedReads]
    · rw [exec_nudgeTestInject, live_next _ hh, nudge_inject, if_pos hd]; rfl

/-! ## The idle poll -/

/-- R72: whether a channel is polled. -/
theorem polled_eq (c : Channel) : c.polled = !(c.prog.runState == .running && (c.sync.state == .check
    || c.sync.state == .lock || c.sync.state == .flywheel)) := by
  unfold Channel.polled
  cases c.prog.runState <;> cases c.sync.state <;> rfl

/-- R190: the reads that an idle poll makes outstanding. -/
def polledReads (s : State) : Request → Bool
  | .slotRead ch => (s.chan ch).polled
  | .journalReRead | .testSample => true
  | _ => false

theorem idlePollExpired_reads (s : State) : MakesReads (polledReads s) s.startPoll s.idlePollExpired := by
  have h1 := makesReads_slots s.startPoll (fun ch => (s.chan ch).polled) (fun ch u => u.pollChannel ch) fun ch u hu => by
    unfold State.pollChannel; rw [hu]; rfl
  refine ((h1.trans (makesReads_requestRead _ .journalReRead)).trans (makesReads_requestRead _ .testSample)).congr fun r => ?_
  cases r
  case slotRead ch =>
    rw [any_slotRead]
    show (_ || false || false) = _
    rw [Bool.or_false, Bool.or_false]; rfl
  all_goals
    rw [any_not_slotRead _ fun _ => Request.noConfusion]
    simp [polledReads]

/-! ## Notices -/

/-- R129, R130: a capture notice changes its channel's Writeback Unit and one pending bit. -/
theorem captureNotice_eq (s : State) (ch : Chan) : s.captureNotice ch = { s with
    chans := (s.captureNotice ch).chans
    regs := { s.regs with irqPend := s.regs.irqPend ||| BitVec.ofNat 11 (2 ^ chanNumber ch) } } := rfl

theorem captureNotice_chan (s : State) (ch : Chan) : (s.captureNotice ch).chan ch = { s.chan ch with
    wb := { (s.chan ch).wb with notified := (s.chan ch).wb.published, holdoff := none } } := by
  unfold State.captureNotice; rw [raise_chan, chan_modWb]

theorem captureNotice_chan_ne (s : State) {ch c : Chan} (h : c ≠ ch) : (s.captureNotice ch).chan c = s.chan c := by
  unfold State.captureNotice; rw [raise_chan, chan_modWb_ne s _ h]

/-- R146, R147: the JOURNAL notice changes the Event Unit's noticed mark and timer, and one pending bit. -/
theorem journalNotice_eq (s : State) : s.journalNotice = { s with
    events := { s.events with noticed := s.events.published, holdoff := none }
    regs := { s.regs with irqPend := s.regs.irqPend ||| 0x100 } } := rfl

/-- Settles O15: each expiry finds its timer running, so it acts. -/
theorem pollAndHoldoffExpiries : Obligations.PollAndHoldoffExpiries := by
  intro n s hh
  refine ⟨fun k hp => ?_, fun ch hw => ?_, fun hw => ?_⟩
  · have h := (idlePollExpired_reads s).arbitrate (idlePollExpired_sound k.toSound).toTidy
    obtain ⟨port, he⟩ := h.state
    have ho := h.outstanding
    rw [he] at ho
    refine ⟨port, ?_, by rw [ho]; exact Bool.or_true _, by rw [ho]; exact Bool.or_true _, fun ch => ?_, fun r hj ht hs => ?_⟩
    · rw [exec_idlePollExpiry, live_next _ hh, hp, Option.isSome_some, if_pos rfl, he]; rfl
    · rw [ho, ← polled_eq]; rfl
    · rw [ho]
      cases r
      case slotRead ch => exact absurd rfl (hs ch)
      case journalReRead => exact absurd rfl hj
      case testSample => exact absurd rfl ht
      all_goals exact Bool.or_false _
  · refine ⟨s.captureNotice ch, ?_, captureNotice_eq s ch, captureNotice_chan s ch, fun c hc => captureNotice_chan_ne s hc⟩
    rw [exec_captureHoldoffExpiry, live_next _ hh, hw]; rfl
  · rw [exec_journalHoldoffExpiry, live_next _ hh, hw, Option.isSome_some, if_pos rfl, journalNotice_eq]

end Sys2Proof.Machine
end

section
/-! PROOFS. The register window: CTRL and what the device does about it, register writes, and what the registers read. -/

namespace Sys2Proof.Machine

variable {s t : State}

/-! ## CTRL -/

/-- R186: a device that has followed CTRL.RUN has nothing to do. -/
theorem followRun_of_followed (h : s.Followed) : s.followRun = s := by
  unfold State.followRun
  unfold State.Followed at h
  split <;> simp_all

/-- R186, log 15: a CTRL write that the device need not follow is stored and nothing else. -/
theorem writeCtrl_stored (k : s.Inv) {run irqen : Bool} (h : (s.setCtrl run irqen).Followed) :
    (s.writeCtrl run irqen).arbitrate = s.setCtrl run irqen := by
  unfold State.writeCtrl
  rw [followRun_of_followed h]
  exact arbitrate_of_granted _ k.granted k.arrived

/-- Settles O7: in each of these states the device has followed the RUN that is stored. -/
theorem ctrlStored : Obligations.CtrlStored := by
  intro b s hh k
  refine ⟨?_, fun h => ?_⟩
  · rw [exec_ctrlIrqen, live_next _ hh, writeCtrl_stored k (run := s.regs.run) (irqen := b) k.followed]; rfl
  · have hf : (s.setCtrl b s.regs.irqen).Followed := by
      rcases h with h | h | h | h
      · unfold State.Followed State.setCtrl; rw [h]; trivial
      · unfold State.Followed State.setCtrl; rw [h]; trivial
      · unfold State.Followed State.setCtrl; rw [h]; trivial
      · rw [← h]; exact k.followed
    rw [exec_ctrlRun, live_next _ hh, writeCtrl_stored k hf]; rfl

/-- R184, R187: with the port idle, the header read of a session is issued at once. -/
theorem enterStarting_arbitrate_idle (h : s.port.inFlight = none) :
    s.enterStarting.arbitrate = { s.enterStarting with
      port := { Port.reset with
        inFlight := some
          { request := .headerRead, address := s.regs.cpbase, length := 256, data := [], orphan := false }
        timer := some 0 } } := by
  have hp : s.port.atStarting = { Port.reset with timer := s.port.timer } := by unfold Port.atStarting; rw [h]; rfl
  unfold State.enterStarting
  rw [hp]
  exact request_arbitrate _ .headerRead rfl

/-- R184: a transaction in flight goes on as nobody's, and the header read waits behind it. -/
theorem enterStarting_arbitrate_busy {w : Transaction} (h : s.port.inFlight = some w) :
    s.enterStarting.arbitrate = { s.enterStarting with
      port := { Port.reset with
        classB := [.headerRead], inFlight := some { w with orphan := true }, timer := s.port.timer } } := by
  have hp : s.port.atStarting = { Port.reset with inFlight := some { w with orphan := true }, timer := s.port.timer } := by
    unfold Port.atStarting; rw [h]; rfl
  unfold State.enterStarting
  rw [hp]
  exact request_arbitrate _ .headerRead rfl

theorem Port.reset_classC (ch : Chan) : Port.reset.classC.get ch = false := PerChannel.get_all false ch

/-- Settles O8: the device follows RUN into STARTING, and the header read arrives at an empty port or behind an orphan. -/
theorem ctrlRunStarts : Obligations.CtrlRunStarts := by
  intro s hh hd
  have hf : s.writeCtrl true s.regs.irqen = (s.setCtrl true s.regs.irqen).enterStarting := by
    rcases hd with hd | hd <;>
    · unfold State.writeCtrl State.followRun
      rw [show (s.setCtrl true s.regs.irqen).device = _ from hd]; rfl
  rw [exec_ctrlRun, live_next _ hh, hf]
  cases hp : s.port.inFlight with
  | none =>
    rw [enterStarting_arbitrate_idle (s := s.setCtrl true s.regs.irqen) hp]
    exact ⟨_, rfl, rfl, rfl, rfl, Port.reset_classC, rfl, fun _ => ⟨rfl, rfl, rfl⟩, fun _ h => nomatch h⟩
  | some w =>
    rw [enterStarting_arbitrate_busy (s := s.setCtrl true s.regs.irqen) hp]
    refine ⟨_, rfl, rfl, rfl, rfl, Port.reset_classC, rfl, (fun h => nomatch h), fun x h => ?_⟩
    cases h
    exact ⟨rfl, rfl, rfl⟩

/-! ## Register writes -/

/-- R196: a write of the four bytes of a register. -/
theorem exec_writeRegister (s : State) (r : Register) (v : Word) :
    exec (.registerWrite (registerOffset r) 0xF v) s = s.live fun t => (t.writeRegister r v).arbitrate := by
  rw [exec_registerWrite]
  simp only [writeWindow_whole]

/-- R196: a write that covers no register whole is ignored. -/
theorem exec_registerWrite_partial (k : s.Inv) {o : Nat} {l : BitVec 4} (h : l ≠ 0xF ∨ o % 4 ≠ 0) (v : Word) :
    exec (.registerWrite o l v) s = .next s :=
  (exec_registerWrite s o l v).trans (live_same (by rw [writeWindow_partial s o l h, k.arbitrate]))

/-- R196: a write that a register ignores. -/
theorem exec_writeRegister_same (k : s.Inv) {r : Register} {v : Word} (h : s.writeRegister r v = s) :
    exec (.registerWrite (registerOffset r) 0xF v) s = .next s :=
  (exec_writeRegister s r v).trans (live_same (by rw [h, k.arbitrate]))

/-- Two effects that leave the same state, where RSTN is high, are the effects of the same command. -/
theorem live_congr {f g : State → State} (h : f s = g s) : s.live f = s.live g := by
  unfold State.live; rw [h]

/-- R196: a register ignores the write: ID and STATE always, CPBASE during a session, NUDGE outside RUNNING. -/
theorem writeRegister_ignored {r : Register} (v : Word)
    (h : r = .id ∨ r = .state
      ∨ (r = .cpbaseLo ∨ r = .cpbaseHi) ∧ (s.device = .starting ∨ s.device = .running ∨ s.device = .draining)
      ∨ r = .nudge ∧ s.device ≠ .running) : s.writeRegister r v = s := by
  rcases h with rfl | rfl | ⟨rfl | rfl, hd⟩ | ⟨rfl, hd⟩
  · rfl
  · rfl
  · exact if_neg (by rcases hd with hd | hd | hd <;> simp [hd, DeviceState.cpbaseWritable])
  · exact if_neg (by rcases hd with hd | hd | hd <;> simp [hd, DeviceState.cpbaseWritable])
  · exact nudge_idle hd _ _ _ _

theorem cpbaseWritable_of (h : s.device = .dormant ∨ s.device = .stopped ∨ s.device = .faulted) :
    s.device.cpbaseWritable = true := by
  rcases h with h | h | h <;> rw [h] <;> rfl

/-- R198: each pending bit written as 1 is cleared, and the others stay. -/
theorem getLsbD_cleared (pend : BitVec 11) (v : Word) {i : Nat} (hi : i < 11) :
    (pend &&& ~~~(v.setWidth 11)).getLsbD i = (pend.getLsbD i && !v.getLsbD i) := by
  simp [hi]

theorem getLsbD_stored (v : Word) {i : Nat} (hi : i < 11) : (v.setWidth 11).getLsbD i = v.getLsbD i := by
  simp [hi]

/-- A bit at or above position n of a number below 2^n is 0. -/
theorem getLsbD_of_toNat_lt {w n i : Nat} {x : BitVec w} (h : x.toNat < 2 ^ n) (hi : n ≤ i) : x.getLsbD i = false :=
  Nat.testBit_lt_two_pow (Nat.lt_of_lt_of_le h (Nat.pow_le_pow_right (by omega) hi))

/-- R196: a NUDGE write of one byte names slots only. -/
theorem high_bits_of_byte {v : Word} (h : v.toNat < 256) {i : Nat} (hi : 8 ≤ i) : v.getLsbD i = false :=
  getLsbD_of_toNat_lt (n := 8) h hi

/-- The channels of a NUDGE write stand in its lowest byte. -/
theorem getLsbD_channels (v : Word) (ch : Chan) : (v.setWidth 8).getLsbD (chanNumber ch) = v.getLsbD (chanNumber ch) := by
  cases ch <;> simp [chanNumber]

theorem if_both {α : Type} {P Q : Prop} [Decidable P] [Decidable Q] (a b : α) :
    (if P ∧ Q then a else b) = if P then if Q then a else b else b := by
  by_cases hp : P
  · rw [if_pos hp]
    exact ite_of_iff (and_iff_right hp)
  · rw [if_neg hp, if_neg fun e => hp e.1]

/-- Settles O10: each register's write, in the order of the statement. -/
theorem registerWrite : Obligations.RegisterWrite := by
  intro value s k write
  have hctrl : value.getLsbD 1 = false →
      s.writeRegister .ctrl value = s.writeCtrl (value.getLsbD 0) (value.getLsbD 2) :=
    fun h => if_neg (by rw [h]; exact Bool.false_ne_true)
  refine ⟨?narrow, ?ignored, ?cpbase, ?srst, ?run, ?irqen, ?both, ?nudge, ?slots, ?pend, ?mask, ?bits⟩
  case narrow => exact fun o l h => exec_registerWrite_partial k h value
  case ignored =>
    intro reg lanes h
    by_cases hl : lanes = 0xF
    · subst hl
      exact exec_writeRegister_same k (writeRegister_ignored value (h.resolve_left fun h => h rfl))
    · exact exec_registerWrite_partial k (.inl hl) value
  case cpbase =>
    intro hh hd
    have hw := cpbaseWritable_of hd
    refine ⟨?_, ?_⟩
    · rw [exec_writeRegister, live_next _ hh]
      refine congrArg _ ((congrArg State.arbitrate (if_pos hw)).trans ?_)
      exact arbitrate_of_granted _ k.granted k.arrived
    · rw [exec_writeRegister, live_next _ hh]
      refine congrArg _ ((congrArg State.arbitrate (if_pos hw)).trans ?_)
      exact arbitrate_of_granted _ k.granted k.arrived
  case srst =>
    intro h
    rw [exec_writeRegister, exec_softReset]
    refine live_congr ((congrArg State.arbitrate (if_pos h)).trans ?_)
    exact ((softReset_sound k.toTidy).inv_of_reset rfl).arbitrate
  case run =>
    intro h hi
    rw [exec_writeRegister, exec_ctrlRun]
    exact live_congr (by rw [hctrl h, hi])
  case irqen =>
    intro h hr
    rw [exec_writeRegister, exec_ctrlIrqen]
    exact live_congr (by rw [hctrl h, hr])
  case both =>
    intro h hh
    rw [exec_writeRegister, exec_ctrlRun, live_next _ hh, hctrl h]
    exact (live_next (s := { s with regs := { s.regs with irqen := value.getLsbD 2 } })
      (fun t => (t.writeCtrl (value.getLsbD 0) t.regs.irqen).arbitrate) hh).symm
  case nudge =>
    intro hh hd
    obtain ⟨port, he, ho⟩ := nudge_running k hd (value.setWidth 8) (value.getLsbD 8) (value.getLsbD 9) (value.getLsbD 10)
    refine ⟨port, ?_, fun ch => ?_, ho _, ho _, fun r hj ht hs => ?_⟩
    · rw [exec_writeRegister, live_next _ hh]
      refine congrArg _ (he.trans ?_)
      rw [if_both]; rfl
    · rw [ho, ← getLsbD_channels]; rfl
    · rw [ho]
      cases r
      case slotRead ch => exact absurd rfl (hs ch)
      case journalReRead => exact absurd rfl hj
      case testSample => exact absurd rfl ht
      all_goals exact Bool.or_false _
  case slots =>
    intro hv
    rw [exec_writeRegister, exec_nudgeSlotSample]
    refine live_congr ?_
    simp only [State.writeRegister, high_bits_of_byte hv (Nat.le_refl 8), high_bits_of_byte hv (show 8 ≤ 9 by omega),
      high_bits_of_byte hv (show 8 ≤ 10 by omega)]
  case pend =>
    rw [exec_writeRegister, exec_irqPendWrite]
    exact live_congr (arbitrate_of_granted _ k.granted k.arrived)
  case mask =>
    rw [exec_writeRegister, exec_irqMaskWrite]
    exact live_congr (arbitrate_of_granted _ k.granted k.arrived)
  case bits =>
    intro hh
    exact ⟨⟨_, (exec_irqPendWrite s value).trans (live_next _ hh), fun _ hi => getLsbD_cleared _ _ hi⟩,
      ⟨_, (exec_irqMaskWrite s value).trans (live_next _ hh), fun _ hi => getLsbD_stored _ hi⟩⟩

/-! ## What the registers read -/

/-- R195: the four offsets of a register's bytes are its own. -/
theorem registerAt_within (r : Register) {j : Nat} (h : j < 4) : registerAt (registerOffset r + j) = some r := by
  have hd : (registerOffset r + j) / 4 = registerOffset r / 4 := by cases r <;> simp only [registerOffset] <;> omega
  rw [registerAt, hd]; exact registerAt_offset r

theorem registerOffset_aligned (r : Register) (j : Nat) (h : j < 4) : (registerOffset r + j) % 4 = j := by
  cases r <;> simp only [registerOffset] <;> omega

/-- A partial function that has a value at every element of a list. -/
theorem filterMap_of_some {α β : Type} {f : α → Option β} {g : α → β} {l : List α} (h : ∀ x ∈ l, f x = some (g x)) :
    l.filterMap f = l.map g := by
  induction l with
  | nil => rfl
  | cons x l ih =>
    rw [List.filterMap_cons_some (h x List.mem_cons_self), List.map_cons,
      ih fun y hy => h y (List.mem_cons_of_mem x hy)]

/-- R196: a read inside a register returns its bytes there. -/
theorem readBytes_within (s : State) (r : Register) {i width : Nat} (h : i + width ≤ 4) :
    s.readBytes (registerOffset r + i) width = ((bytesOf 4 (s.readRegister r).toNat).drop i).take width := by
  have hb : s.readBytes (registerOffset r + i) width
      = (List.range width).map fun n => byteAt (bytesOf 4 (s.readRegister r).toNat) (i + n) := by
    unfold State.readBytes
    refine filterMap_of_some fun n hn => ?_
    have hlt : i + n < 4 := by have := List.mem_range.1 hn; omega
    rw [Nat.add_assoc, registerAt_within r hlt, registerOffset_aligned r _ hlt]; rfl
  rw [hb]
  refine List.ext_getElem (by simp [bytesOf_length]; omega) fun n h1 h2 => ?_
  have hlt : i + n < (bytesOf 4 (s.readRegister r).toNat).length := by
    simp only [List.length_map, List.length_range] at h1
    rw [bytesOf_length]; omega
  simp [byteAt, hlt]

/-- The bits of CTRL: RUN at 0, IRQEN at 2. -/
theorem ctrl_bits (run irqen : Bool) (i : Nat) :
    (BitVec.ofNat 32 ((if run then 1 else 0) + (if irqen then 4 else 0))).getLsbD i
      = (decide (i = 0) && run || decide (i = 2) && irqen) := by
  by_cases hi : i < 3
  · obtain rfl | rfl | rfl : i = 0 ∨ i = 1 ∨ i = 2 := by omega
    · cases run <;> cases irqen <;> rfl
    · cases run <;> cases irqen <;> rfl
    · cases run <;> cases irqen <;> rfl
  · have hlt : ((if run then 1 else 0) + (if irqen then 4 else 0) : Nat) < 2 ^ i :=
      Nat.lt_of_lt_of_le (by split <;> split <;> omega) (Nat.pow_le_pow_right (by omega) (by omega : 3 ≤ i))
    rw [BitVec.getLsbD_ofNat, Nat.testBit_lt_two_pow hlt]
    simp [show i ≠ 0 by omega, show i ≠ 2 by omega]

/-- The bit that a RUNNING channel sets in the RUNNING mask. -/
def State.runningBit (s : State) (ch : Chan) : Nat := if (s.chan ch).prog.runState = .running then 1 else 0

theorem runningBit_le (s : State) (ch : Chan) : s.runningBit ch ≤ 1 := by
  unfold State.runningBit; split <;> omega

/-- R196: the RUNNING mask, channel by channel. -/
theorem runningMask_eq (s : State) : s.runningMask = s.runningBit .ch0 + 2 * s.runningBit .ch1 + 4 * s.runningBit .ch2
    + 8 * s.runningBit .ch3 + 16 * s.runningBit .ch4 + 32 * s.runningBit .ch5 + 64 * s.runningBit .ch6
    + 128 * s.runningBit .ch7 := by
  have hb : (fun ch => if (s.chan ch).prog.runState = .running then 2 ^ chanNumber ch else 0)
      = fun ch => 2 ^ chanNumber ch * s.runningBit ch := funext fun ch => by unfold State.runningBit; split <;> simp
  rw [State.runningMask, hb]
  simp only [allChans, List.map_cons, List.map_nil, List.sum_cons, List.sum_nil, chanNumber]
  omega

theorem runningMask_lt (s : State) : s.runningMask < 256 := by
  have h := runningBit_le s
  have h0 := h .ch0; have h1 := h .ch1; have h2 := h .ch2; have h3 := h .ch3
  have h4 := h .ch4; have h5 := h .ch5; have h6 := h .ch6; have h7 := h .ch7
  rw [runningMask_eq]; omega

/-- Bit n of the RUNNING mask is channel n's. -/
theorem runningMask_div (s : State) (ch : Chan) : s.runningMask / 2 ^ chanNumber ch % 2 = s.runningBit ch := by
  have h := runningBit_le s
  have h0 := h .ch0; have h1 := h .ch1; have h2 := h .ch2; have h3 := h .ch3
  have h4 := h .ch4; have h5 := h .ch5; have h6 := h .ch6; have h7 := h .ch7
  rw [runningMask_eq]
  cases ch <;> simp only [chanNumber] <;> omega

theorem deviceCode_lt (d : DeviceState) : deviceCode d < 16 := by cases d <;> decide

theorem faultCodeNumber_lt (c : FaultCode) : faultCodeNumber c < 16 := by cases c <;> decide

/-- The number in STATE: the device state, the fault code and the RUNNING mask side by side. -/
theorem readRegister_state_toNat (s : State) : (s.readRegister .state).toNat
    = deviceCode s.device + 16 * faultCodeNumber s.faultCode + 256 * s.runningMask := by
  have hd := deviceCode_lt s.device
  have hf := faultCodeNumber_lt s.faultCode
  have hm := runningMask_lt s
  exact BitVec.toNat_ofNat _ _ ▸ Nat.mod_eq_of_lt (by omega)

theorem readRegister_state_running (s : State) (ch : Chan) :
    (s.readRegister .state).getLsbD (8 + chanNumber ch) = decide ((s.chan ch).prog.runState = .running) := by
  have hd := deviceCode_lt s.device
  have hf := faultCodeNumber_lt s.faultCode
  have hb := runningMask_div s ch
  have hs : (s.readRegister .state).toNat / 2 ^ 8 = s.runningMask := by rw [readRegister_state_toNat]; omega
  rw [BitVec.getLsbD, Nat.testBit_eq_decide_div_mod_eq, Nat.pow_add, ← Nat.div_div_eq_div_mul, hs, hb]
  unfold State.runningBit
  split <;> simp_all

/-- A bit that a mask keeps of a word of which the mask leaves nothing. -/
theorem getLsbD_of_masked {x m : Word} (h : x &&& m = 0) {i : Nat} (hm : m.getLsbD i = true) : x.getLsbD i = false := by
  have hb := congrArg (BitVec.getLsbD · i) h
  simpa [hm] using hb

/-- Settles O11: the offsets, the bytes, and the bits of each register. -/
theorem registerReads : Obligations.RegisterReads := by
  intro s
  have hd := deviceCode_lt s.device
  have hf := faultCodeNumber_lt s.faultCode
  have hm := runningMask_lt s
  have hstate := readRegister_state_toNat s
  have hctrl : ∀ i, (s.readRegister .ctrl).getLsbD i = (decide (i = 0) && s.regs.run || decide (i = 2) && s.regs.irqen) :=
    ctrl_bits s.regs.run s.regs.irqen
  have hlow : ∀ i, i < 12 → (0xFFF : Word).getLsbD i = true := by decide
  have hhigh : ∀ i, i < 32 → 16 ≤ i → (0xFFFF0000 : Word).getLsbD i = true := by decide
  refine ⟨⟨rfl, rfl, rfl, rfl, rfl, rfl, rfl, rfl⟩, fun r i width h => readBytes_within s r h, rfl, rfl, ?_, ?_, ?_, ?_, ?_,
    readRegister_state_running s, ?_, rfl, rfl, fun k => ⟨?_, ?_⟩, ?_, ?_⟩
  · rw [hctrl]; simp
  · rw [hctrl]; simp
  · intro i h0 h2; simp [hctrl, h0, h2]
  · omega
  · omega
  · exact fun i hi => getLsbD_of_toNat_lt (n := 16) (by omega) hi
  · exact fun i hi => getLsbD_of_masked k.base.1 (hlow i hi)
  · intro i hi
    by_cases h32 : i < 32
    · exact getLsbD_of_masked k.base.2 (hhigh i h32 hi)
    · exact BitVec.getLsbD_of_ge _ _ (by omega)
  · intro i hi
    simp [State.readRegister]; omega
  · intro i hi
    simp [State.readRegister, BitVec.getLsbD_of_ge _ _ hi]

end Sys2Proof.Machine
end

section
/-! PROOFS. A STRT edge, and the entry to DRAINING: what the device and each channel do, and what is reported. -/

namespace Sys2Proof.Machine

variable {s t u : State} {ch : Chan}

/-! ## A device state that is reported -/

/-- R189, R191, R192: a device that takes a state changes nothing else but the Event Unit and the requests. -/
theorem enterState_keeps (s : State) (d : DeviceState) : KeepsChans { s with device := d } (s.enterState d) := announce_keeps _

theorem enterState_chan (s : State) (d : DeviceState) (ch : Chan) : (s.enterState d).chan ch = s.chan ch :=
  (enterState_keeps s d).chan ch

@[simp] theorem enterState_timebase (s : State) (d : DeviceState) : (s.enterState d).timebase = s.timebase :=
  (enterState_keeps s d).timebase

/-- R136: a device that takes a state in which it takes events reports it. -/
theorem enterState_reports (s : State) {d : DeviceState} (h : d.takesEvents = true) :
    s.Reports (s.enterState d) [(none, .deviceState d)] :=
  fun _ room => hand_queue { s with device := d } none (.deviceState d) h (Nat.lt_of_succ_le room)

theorem enterState_queue (s : State) {d : DeviceState} (h : d.takesEvents = true) (room : s.events.queue.length < 16) :
    (s.enterState d).events.queue = s.events.queue ++ [⟨none, .deviceState d, s.timebase⟩] :=
  hand_queue { s with device := d } none (.deviceState d) h room

theorem enterState_mirror (s : State) (d : DeviceState) : (s.enterState d).port.waiting .mirrorWrite = true :=
  request_waits _ _

/-- Reports of one operation after another, where the first leaves the device in a state in which it takes events. -/
theorem State.Reports.andThen {l m : List (Option Chan × EventBody)} (h : s.Reports t l) (k : t.Reports u m)
    (device : t.device.takesEvents = true) (timebase : t.timebase = s.timebase) : s.Reports u (l ++ m) := by
  intro hd room
  have hl := h hd (by simp at room; omega)
  have hm := k device (by rw [hl]; simp at room ⊢; omega)
  rw [hm, hl, timebase]; simp

/-! ## A STRT edge -/

/-- R200, R201: the state at a STRT edge before the channels start: START_EDGE handed over, then the timebase. -/
def State.edgeTaken (s : State) : State := (s.hand none .startEdge).strtTimebase

theorem strtEdge_eq (h : s.device = .running) : s.strtEdge = s.edgeTaken.forChans fun ch t => t.strtChannel ch := if_pos h

theorem edgeTaken_chan (s : State) (ch : Chan) : s.edgeTaken.chan ch = s.chan ch := hand_chan s _ _ ch

theorem edgeTaken_timebase (s : State) : s.edgeTaken.timebase = if s.params.timebaseOnStrt then 0 else s.timebase := by
  have h := hand_keeps s none .startEdge
  rw [← h.params, ← h.timebase]; rfl

theorem edgeTaken_queue (h : s.device = .running) (room : s.events.queue.length < 16) :
    s.edgeTaken.events.queue = s.events.queue ++ [⟨none, .startEdge, s.timebase⟩] :=
  hand_queue s none .startEdge (by rw [h]; rfl) room

/-- R62: what a STRT edge leaves of a channel. -/
theorem strtAll_chan (s : State) (ch : Chan) :
    ∃ v : State, v.chan ch = s.chan ch ∧ (s.forChans fun ch t => t.strtChannel ch).chan ch = (v.strtChannel ch).chan ch
      ∧ Keeps (· = ch) (v.strtChannel ch) (s.forChans fun ch t => t.strtChannel ch) := by
  obtain ⟨v, _, hv, hc, hk⟩ := forChans_chan s (fun ch t => t.strtChannel ch) (fun c u => strtChannel_keeps u c) ch
  exact ⟨v, hv, hc, hk⟩

theorem strtChannel_appended (s : State) (ch : Chan) : EventsAppended s (s.strtChannel ch) := by
  unfold State.strtChannel
  split
  · exact startFraming_appended s ch _
  · exact .refl s

/-- Settles O14: the edge is reported, and then each ARMED channel starts framing by itself. -/
theorem strtEdge : Obligations.StrtEdge := by
  intro s hh hd armed
  have hk := hand_keeps s none .startEdge
  have hall := strtAll_keeps s.edgeTaken
  refine ⟨s.edgeTaken.forChans fun ch t => t.strtChannel ch, ?exec, ?timebase, ?first, ?reports, ?armed, ?others, ?_⟩
  case exec => rw [exec_strtRisingEdge, live_next _ hh, strtEdge_eq hd]
  case timebase => rw [hall.timebase, edgeTaken_timebase]
  case first =>
    intro room
    obtain ⟨l, hl⟩ := forChans_appended s.edgeTaken (fun ch t => t.strtChannel ch) fun c u => strtChannel_appended u c
    exact ⟨l, by rw [hl, edgeTaken_queue hd room, List.append_assoc]; rfl⟩
  case reports =>
    intro room
    have hq := edgeTaken_queue hd (by omega)
    have hr := strtAll_reports s.edgeTaken
    simp only [edgeTaken_chan] at hr
    have h := hr (by rw [show s.edgeTaken.device = s.device from hk.device, hd]; rfl) (by
      rw [hq, List.length_append, List.length_map]; exact room)
    rw [h, hq, hall.timebase, List.map_map, List.append_assoc]; rfl
  case armed =>
    intro ch ha
    obtain ⟨v, hv, hc, hw⟩ := strtAll_chan s.edgeTaken ch
    rw [edgeTaken_chan] at hv
    have hs : v.strtChannel ch = v.startFraming ch .strt := if_pos (by rw [hv]; exact ha)
    rw [hs] at hc hw
    refine ⟨?_, hw.waiting _ (startFraming_waits v ch .strt)⟩
    rw [hc, startFraming_chan, hv]; rfl
  case others =>
    intro ch ha
    obtain ⟨v, hv, hc, _⟩ := strtAll_chan s.edgeTaken ch
    rw [edgeTaken_chan] at hv
    have hs : v.strtChannel ch = v := if_neg (by rw [hv]; exact ha)
    rw [hc, hs, hv]
  exact ⟨hall.device.trans hk.device, hall.regs.trans hk.regs, hall.test.trans hk.test, hall.mem.trans hk.mem,
    hall.params.trans hk.params, hall.idlePoll.trans hk.idlePoll, hall.sessionBase.trans hk.sessionBase,
    hall.frozen.trans hk.frozen, hall.inFlight.trans hk.inFlight⟩

/-! ## The entry to DRAINING -/

/-- R191: the state in DRAINING before the channels are HALTED. -/
def State.drainEntered (s : State) : State := s.stopPoll.enterState .draining

theorem enterDraining_eq (s : State) : s.enterDraining = (s.drainEntered.forChans fun ch t => t.drainChannel ch).drainTest := rfl

theorem drainEntered_keeps (s : State) : KeepsChans { s with idlePoll := none, device := .draining } s.drainEntered :=
  enterState_keeps s.stopPoll .draining

/-- R172: a Test Source asked to stop, behind an operation that keeps it. -/
theorem Keeps.drainTest {p : Chan → Prop} (h : Keeps p s t) : Keeps p { s with
    test := if s.test.state = .running then { s.test with stopRequested := true } else s.test } t.drainTest := by
  have ht : t.drainTest.test = if s.test.state = .running then { s.test with stopRequested := true } else s.test := by
    rw [← h.test]; rfl
  exact { h with test := ht }

@[simp] theorem drainTest_chan (s : State) (ch : Chan) : s.drainTest.chan ch = s.chan ch := rfl
@[simp] theorem drainTest_port (s : State) : s.drainTest.port = s.port := rfl
@[simp] theorem drainTest_events (s : State) : s.drainTest.events = s.events := rfl

/-- R191: an entry to DRAINING keeps everything but the device state, the timer, the Test Source, the channels and what it reports. -/
theorem enterDraining_keeps (s : State) : Keeps (fun _ => False) { s with
    idlePoll := none, device := .draining
    test := if s.test.state = .running then { s.test with stopRequested := true } else s.test } s.enterDraining := by
  have h := (drainEntered_keeps s).but.trans (drainAll_keeps s.drainEntered)
  rw [enterDraining_eq]
  exact h.drainTest

/-- R68, R87: a channel that is not in a run only loses its pending program. -/
theorem drainChannel_stays (h : ¬((s.chan ch).prog.runState = .armed ∨ (s.chan ch).prog.runState = .running)) :
    (s.drainChannel ch).chan ch = { s.chan ch with prog := { (s.chan ch).prog with held := none } } := by
  unfold State.drainChannel
  rw [if_neg h, chan_modProg]

theorem drainChannel_halts (h : (s.chan ch).prog.runState = .armed ∨ (s.chan ch).prog.runState = .running) :
    s.drainChannel ch = (s.modProg ch fun p => { p with held := none }).haltChannel ch .drain := if_pos h

/-- R29, R64, R68, R109, R127: a channel that is HALTED, as the truncation and the group taken up leave it. -/
theorem haltChannel_steps (s : State) (ch : Chan) (c : Cause) :
    ∃ x : State, x.chan ch = { s.chan ch with
        prog := { (s.chan ch).prog with runState := .halted }, sync := (s.chan ch).sync.emptied .off }
      ∧ (s.haltChannel ch c).chan ch = ((x.truncate ch).writebackNext ch).chan ch := by
  refine ⟨s.modChan ch fun c => { c with
    prog := { c.prog with runState := .halted }, sync := c.sync.emptied .off }, chan_modChan .., ?_⟩
  rw [haltChannel_chan, writebackNext_chan, truncate_chan, chan_modChan]

/-- Settles O9: the device reports DRAINING, and then each channel in a run is HALTED by itself. -/
theorem ctrlRunDrains : Obligations.CtrlRunDrains := by
  intro s hh _ hd halted
  let s0 := s.setCtrl false s.regs.irqen
  have hf : s.writeCtrl false s.regs.irqen = s0.enterDraining.drainCheck := by
    unfold State.writeCtrl State.followRun
    rw [show (s.setCtrl false s.regs.irqen).device = .running from hd]; rfl
  have hk := enterDraining_keeps s0
  have hentered : ∀ ch, s0.drainEntered.chan ch = s.chan ch := (drainEntered_keeps s0).chan
  have hchan : ∀ ch, ∃ v : State, v.chan ch = s.chan ch ∧ s0.enterDraining.chan ch = (v.drainChannel ch).chan ch
      ∧ Keeps (· = ch) (v.drainChannel ch) (s0.drainEntered.forChans fun ch t => t.drainChannel ch) := fun ch => by
    obtain ⟨v, _, hv, hc, hw⟩ := forChans_chan s0.drainEntered (fun ch t => t.drainChannel ch)
      (fun c u => drainChannel_keeps u c) ch
    rw [enterDraining_eq, drainTest_chan]
    exact ⟨v, hv.trans (hentered ch), hc, hw⟩
  refine ⟨s0.enterDraining, ?exec, hk.device, hk.idlePoll, hk.regs, hk.test, ?mirror, ?first, ?reports, ?halted, ?others,
    hk.mem, hk.timebase, hk.sessionBase, hk.params, hk.faultCode, hk.frozen, hk.inFlight⟩
  case exec => rw [exec_ctrlRun, live_next _ hh, hf]
  case mirror =>
    rw [enterDraining_eq, drainTest_port]
    exact (drainAll_keeps s0.drainEntered).waiting _ (enterState_mirror s0.stopPoll .draining)
  case first =>
    intro room
    obtain ⟨l, hl⟩ := forChans_appended s0.drainEntered (fun ch t => t.drainChannel ch) fun c u => drainChannel_appended u c
    have hq : s0.drainEntered.events.queue = s.events.queue ++ [⟨none, .deviceState .draining, s.timebase⟩] :=
      enterState_queue s0.stopPoll rfl room
    refine ⟨l, ?_⟩
    rw [enterDraining_eq, drainTest_events, hl, hq, List.append_assoc]; rfl
  case reports =>
    have h1 : s.Reports s0.drainEntered [(none, .deviceState .draining)] :=
      (enterState_reports s0.stopPoll rfl).copy rfl rfl rfl rfl
    have h2 := drainAll_reports s0.drainEntered
    simp only [hentered] at h2
    have h := h1.andThen h2 (by rw [State.drainEntered, enterState_device]; rfl) (enterState_timebase _ _)
    exact h.copy rfl rfl rfl (by rw [enterDraining_eq, drainTest_events])
  case halted =>
    intro ch hr
    obtain ⟨v, hv, hc, hw⟩ := hchan ch
    have hdrain := drainChannel_halts (s := v) (ch := ch) (by rw [hv]; exact hr)
    rw [hdrain] at hc hw
    obtain ⟨hprog, hsync, hmon, hfill, hwait⟩ := haltChannel_halts (v.modProg ch fun p => { p with held := none }) ch .drain
    obtain ⟨x, hx, hsteps⟩ := haltChannel_steps (v.modProg ch fun p => { p with held := none }) ch .drain
    simp only [chan_modProg, hv] at hprog hsync hmon hx
    rw [hc]
    refine ⟨hprog, hsync, hmon, ⟨x, ?_, hsteps⟩, hfill, ?_⟩
    · rw [hx, hprog, hsync]; rfl
    · rw [enterDraining_eq, drainTest_port]
      exact hw.waiting _ hwait
  case others =>
    intro ch hr
    obtain ⟨v, hv, hc, _⟩ := hchan ch
    rw [hc, drainChannel_stays (by rw [hv]; exact hr), hv]

end Sys2Proof.Machine
end

section
/-! PROOFS. Bit clocks and the Activity Monitor (R31 to R42): what the monitor counts, and the changes of activity. -/

namespace Sys2Proof.Machine

variable {s : State} {ch : Chan} {bit : Bool} {m : Monitor}

/-! ## What the monitor judges -/

/-- R35: a bit clock is a transition when the bit before it was the other one. -/
theorem transition_iff (m : Monitor) (bit : Bool) : m.transition bit = true ↔ m.lastBit = some (!bit) := by
  unfold Monitor.transition
  cases m.lastBit with
  | none => simp
  | some b => cases b <;> cases bit <;> decide

theorem transition_true (h : m.lastBit = some (!bit)) : m.transition bit = true := (transition_iff m bit).2 h

theorem transition_false (h : ¬m.lastBit = some (!bit)) : m.transition bit = false :=
  Bool.eq_false_iff.2 fun e => h ((transition_iff m bit).1 e)

theorem nextQuietRun_transition (h : m.lastBit = some (!bit)) : m.nextQuietRun bit = 0 := if_pos (transition_true h)

theorem nextQuietRun_quiet (h : ¬m.lastBit = some (!bit)) : m.nextQuietRun bit = m.quietRun + 1 :=
  if_neg (Bool.eq_false_iff.1 (transition_false h))

theorem nextTransitions_eq (m : Monitor) (bit : Bool) :
    m.nextTransitions bit = m.windowTransitions + if m.lastBit = some (!bit) then 1 else 0 := by
  unfold Monitor.nextTransitions
  split
  · rename_i h; rw [transition_true h]; rfl
  · rename_i h; rw [transition_false h]; rfl

/-- R39: a gap within the timeout, or a recovery not begun, takes the recovery one further. -/
theorem nextRecovery_further {g ticks : Nat} (hg : m.gap = some g) (h : m.recovery = 0 ∨ g ≤ ticks) :
    m.nextRecovery ticks = m.recovery + 1 := by
  unfold Monitor.nextRecovery
  rw [hg]
  exact if_pos (h.imp_right fun h => decide_eq_true h)

/-- R39: a gap beyond the timeout begins the recovery again. -/
theorem nextRecovery_again {g ticks : Nat} (hg : m.gap = some g) (h0 : m.recovery ≠ 0) (h : ticks < g) :
    m.nextRecovery ticks = 1 := by
  unfold Monitor.nextRecovery
  rw [hg]
  exact if_neg fun e => e.elim h0 fun e => absurd (of_decide_eq_true e) (Nat.not_le.2 h)

theorem judge_active {ticks : Nat} (h : m.state = .active) (hn : m.nextQuietRun bit ≠ 4096) :
    m.judge ticks bit = { m with quietRun := m.nextQuietRun bit } := by
  unfold Monitor.judge; rw [h]; exact if_neg hn

theorem judge_toQuiet {ticks : Nat} (h : m.state = .active) (hn : m.nextQuietRun bit = 4096) :
    m.judge ticks bit = { m.toQuiet with quietRun := 4096 } := by
  unfold Monitor.judge; rw [h]; exact if_pos hn

theorem judge_toActive {ticks : Nat} (h : m.state = .quiet) (hn : m.nextTransitions bit = 64) :
    m.judge ticks bit = { m with state := .active, quietRun := 0, windowPosition := 0, windowTransitions := 0 } := by
  unfold Monitor.judge; rw [h]; exact if_pos hn

theorem judge_windowEnd {ticks : Nat} (h : m.state = .quiet) (hn : m.nextTransitions bit ≠ 64)
    (hp : m.windowPosition + 1 = 512) : m.judge ticks bit = { m with windowPosition := 0, windowTransitions := 0 } := by
  unfold Monitor.judge; rw [h]; exact (if_neg hn).trans (if_pos hp)

theorem judge_window {ticks : Nat} (h : m.state = .quiet) (hn : m.nextTransitions bit ≠ 64)
    (hp : m.windowPosition + 1 ≠ 512) : m.judge ticks bit
      = { m with windowPosition := m.windowPosition + 1, windowTransitions := m.nextTransitions bit } := by
  unfold Monitor.judge; rw [h]; exact (if_neg hn).trans (if_neg hp)

theorem judge_recovery {ticks : Nat} (h : m.state = .noclock) (hn : m.nextRecovery ticks ≠ 256) :
    m.judge ticks bit = { m with recovery := m.nextRecovery ticks } := by
  unfold Monitor.judge; rw [h]; exact if_neg hn

theorem judge_recovered {ticks : Nat} (h : m.state = .noclock) (hn : m.nextRecovery ticks = 256) :
    m.judge ticks bit = { m.toQuiet with recovery := 256 } := by
  unfold Monitor.judge; rw [h]; exact if_pos hn

/-! ## What a bit clock of the monitor leaves -/

/-- R35, R36, R39: a bit clock that changes no activity state is counted, and nothing else. -/
theorem monitorClock_counted {n : Monitor} (h : (s.chan ch).monitor.judge (s.chan ch).prog.timeoutTicks bit = n)
    (hs : n.state = (s.chan ch).monitor.state) :
    s.monitorClock ch bit = s.modMonitor ch fun _ => { n with lastBit := some bit, gap := some 0 } := by
  subst h
  exact if_pos hs

/-- R42: a bit clock that changes the activity state is counted, reported and shown in the slot. -/
theorem monitorClock_entered {n : Monitor} (h : (s.chan ch).monitor.judge (s.chan ch).prog.timeoutTicks bit = n)
    (hs : n.state ≠ (s.chan ch).monitor.state) :
    s.monitorClock ch bit = ((s.modMonitor ch fun _ => { n with lastBit := some bit, gap := some 0 }).activityEntered ch
      n.state).statusChanged ch := by
  subst h
  exact if_neg hs

theorem activityEntered_chan (s : State) (ch : Chan) (a : ActivityState) : (s.activityEntered ch a).chan ch
    = { s.chan ch with
        stats := { (s.chan ch).stats with counters := (s.chan ch).stats.counters.activityEntered a } } := by
  unfold State.activityEntered
  rw [hand_chan, chan_count]

theorem activityEntered_reports (s : State) (ch : Chan) (a : ActivityState) :
    s.Reports (s.activityEntered ch a) [(some ch, .activity a)] :=
  hand_reports (s.count ch (Counters.activityEntered · a)) (some ch) (.activity a)

theorem monitorClock_entered_chan {n : Monitor} (h : (s.chan ch).monitor.judge (s.chan ch).prog.timeoutTicks bit = n)
    (hs : n.state ≠ (s.chan ch).monitor.state) : (s.monitorClock ch bit).chan ch
      = { s.chan ch with
          monitor := { n with lastBit := some bit, gap := some 0 }
          stats := { (s.chan ch).stats with counters := (s.chan ch).stats.counters.activityEntered n.state } } := by
  rw [monitorClock_entered h hs, statusChanged_chan, activityEntered_chan, chan_modMonitor]

theorem monitorClock_entered_reports {n : Monitor}
    (h : (s.chan ch).monitor.judge (s.chan ch).prog.timeoutTicks bit = n) (hs : n.state ≠ (s.chan ch).monitor.state) :
    s.Reports (s.monitorClock ch bit) [(some ch, .activity n.state)]
      ∧ (s.monitorClock ch bit).port.waiting (.statusWrite ch) = true := by
  rw [monitorClock_entered h hs]
  exact ⟨(activityEntered_reports (s.modMonitor ch fun _ => _) ch n.state).copy rfl rfl rfl rfl, statusChanged_waits _ ch⟩

/-! ## Commands that are a bit clock under another name (log 2) -/

theorem exec_bitClock_as {c : Instr} {due : Channel → Bool}
    (he : exec c s = s.live fun t => if due (t.chan ch) then t.lineBit ch bit else t) (hd : due (s.chan ch) = true) :
    exec (.bitClock ch bit) s = exec c s := by
  rw [he, exec_bitClock]
  exact (live_congr (f := fun t => if due (t.chan ch) then t.lineBit ch bit else t) (if_pos hd)).symm

/-- R32: a bit clock that a channel listens to. -/
theorem exec_bitClock_line (h : s.resetHeld = false) (hi : (s.chan ch).prog.input = .line) :
    exec (.bitClock ch bit) s = .next (s.bitClock ch bit).arbitrate := by
  rw [exec_bitClock, live_next _ h, State.lineBit, if_pos hi]

theorem bitClock_deaf (h : (s.chan ch).monitor.evaluating = false) : s.bitClock ch bit = s :=
  if_neg (Bool.eq_false_iff.1 h)

theorem bitClock_noclock (he : (s.chan ch).monitor.evaluating = true) (hn : (s.chan ch).monitor.state = .noclock) :
    s.bitClock ch bit = s.monitorClock ch bit := (if_pos he).trans (if_pos hn)

theorem bitClock_taken (he : (s.chan ch).monitor.evaluating = true) (hn : (s.chan ch).monitor.state ≠ .noclock) :
    s.bitClock ch bit = (s.monitorClock ch bit).takeBit ch bit := (if_pos he).trans (if_neg hn)

/-- R31, R34: the pins that a channel does not listen to. -/
theorem exec_bitClock_ignored (k : s.Inv)
    (h : s.resetHeld = true ∨ (s.chan ch).prog.input = .test ∨ (s.chan ch).monitor.evaluating = false) :
    exec (.bitClock ch bit) s = .next s := by
  rw [exec_bitClock]
  rcases h with h | h | h
  · exact live_held _ h
  · exact live_same (f := fun t => t.lineBit ch bit) (if_neg fun e => by rw [h] at e; cases e)
  · refine live_same (f := fun t => t.lineBit ch bit) ?_
    rw [State.lineBit, bitClock_deaf h, k.arbitrate, ite_self]

theorem takeBit_off (h : (s.chan ch).sync.state = .off) : s.takeBit ch bit = s := by
  unfold State.takeBit
  dsimp only
  rw [h]

/-- R5: a bit in CHECK at which no decision falls due. -/
theorem takeBit_check_undecided {r : RunProgram} (hp : (s.chan ch).prog.settings = some r)
    (hc : (s.chan ch).sync.state = .check)
    (h : ¬((s.chan ch).sync.heldOpen = none ∧ (s.chan ch).sync.position + 1 = r.frameLength
      ∨ (s.chan ch).sync.heldOpen ≠ none ∧ (s.chan ch).sync.position = r.frameLength)) :
    s.takeBit ch bit = s.modSync ch fun _ => (s.chan ch).sync.take r bit := by
  rw [takeBit_check s ch bit r hp hc]
  refine decisionBit_none _ ch r _ _ fun e => h ?_
  rw [chan_modSync] at e
  have hpos : ((s.chan ch).sync.take r bit).position = (s.chan ch).sync.position + 1 := if_neg (by rw [hc]; decide)
  rw [hpos] at e
  exact e.imp id fun e => ⟨e.1, Nat.succ.inj e.2⟩

/-- R5, R17: a bit in LOCK or FLYWHEEL at which no decision falls due is handed on for the frame in progress. -/
theorem takeBit_framing_undecided {r : RunProgram} (hp : (s.chan ch).prog.settings = some r)
    (hf : (s.chan ch).sync.state = .lock ∨ (s.chan ch).sync.state = .flywheel)
    (h : ¬((s.chan ch).sync.heldOpen = none ∧ (s.chan ch).sync.position + 1 = r.frameLength
      ∨ (s.chan ch).sync.heldOpen ≠ none ∧ (s.chan ch).sync.position = r.frameLength)) :
    s.takeBit ch bit = (s.modSync ch fun _ => (s.chan ch).sync.take r bit).captureBit ch
      (r.syncLength - 1 + ((s.chan ch).sync.take r bit).position) (bit != (s.chan ch).sync.inverted) := by
  rw [takeBit_framing s ch bit r hp hf]
  refine decisionBit_none _ ch r _ _ fun e => h ?_
  rw [(captureBit_units _ ch _ _).sync, chan_modSync] at e
  have hpos : ((s.chan ch).sync.take r bit).position = (s.chan ch).sync.position + 1 :=
    if_neg (by rcases hf with h | h <;> rw [h] <;> decide)
  rw [hpos] at e
  exact e.imp id fun e => ⟨e.1, Nat.succ.inj e.2⟩

/-- Settles O16: each bit clock is one branch of the monitor's judgement, and one of the synchronizer's steps. -/
theorem bitClockCounted : Obligations.BitClockCounted := by
  refine ⟨fun ch bit s k h => exec_bitClock_ignored k h, fun ch bit s h hi => exec_bitClock_line h hi, fun ch bit s => ?_⟩
  refine ⟨bitClock_deaf, bitClock_noclock, bitClock_taken, ?run, ?quiet, ?window, ?further, ?again, takeBit_off,
    fun r hp => ⟨fun hc h => takeBit_check_undecided hp hc h, fun hf h => takeBit_framing_undecided hp hf h⟩⟩
  case run =>
    intro hs hc
    have hn := nextQuietRun_transition hc
    exact monitorClock_counted (by rw [judge_active hs (by rw [hn]; decide), hn]) rfl
  case quiet =>
    intro hs hc hr
    have hn := nextQuietRun_quiet hc
    exact monitorClock_counted (by rw [judge_active hs (by rw [hn]; exact hr), hn]) rfl
  case window =>
    intro n hs hn hc hnc hp
    have ht : (s.chan ch).monitor.nextTransitions bit = (s.chan ch).monitor.windowTransitions + n := by
      rw [nextTransitions_eq]
      split
      · rename_i h; rw [hc h]
      · rename_i h; rw [hnc h]
    exact monitorClock_counted (by rw [judge_window hs (by rw [ht]; exact hn) hp, ht]) rfl
  case further =>
    intro g hs hg hr h
    have hn := nextRecovery_further hg h
    exact monitorClock_counted (by rw [judge_recovery hs (by rw [hn]; exact hr), hn]) rfl
  case again =>
    intro g hs hg h0 h
    have hn := nextRecovery_again hg h0 h
    exact monitorClock_counted (by rw [judge_recovery hs (by rw [hn]; decide), hn]) rfl

/-! ## Changes of activity -/

/-- Settles O17: from ACTIVE and from NOCLOCK the monitor enters QUIET by the branch of its judgement that the count selects. -/
theorem quietEntry : Obligations.QuietEntry := by
  intro ch bit s h hi he
  refine ⟨fun hs hc hr => ?active, fun g hs hr hg hle => ?noclock⟩
  case active =>
    have hn : (s.chan ch).monitor.nextQuietRun bit = 4096 := by rw [nextQuietRun_quiet hc, hr]
    have hj := judge_toQuiet (ticks := (s.chan ch).prog.timeoutTicks) hs hn
    have hne : ({ (s.chan ch).monitor.toQuiet with quietRun := 4096 } : Monitor).state ≠ (s.chan ch).monitor.state := by
      rw [hs]; exact fun e => nomatch e
    have hchan := monitorClock_entered_chan hj hne
    have hdue : Channel.quietDue bit (s.chan ch) = true := by
      unfold Channel.quietDue Channel.listening; rw [hi, he, hs, hn]; rfl
    have hexec := exec_bitClock_as (exec_quietEntry s ch bit) hdue
    refine ⟨s.monitorClock ch bit, ⟨rfl, monitorClock_keeps s ch bit, ?_, monitorClock_entered_reports hj hne⟩, ?_, hexec⟩
    · rw [hchan]; rfl
    · rw [← hexec, exec_bitClock_line h hi, bitClock_taken he (by rw [hs]; decide)]
  case noclock =>
    have hn : (s.chan ch).monitor.nextRecovery (s.chan ch).prog.timeoutTicks = 256 := by
      rw [nextRecovery_further hg (.inr hle), hr]
    have hj := judge_recovered (bit := bit) hs hn
    have hne : ({ (s.chan ch).monitor.toQuiet with recovery := 256 } : Monitor).state ≠ (s.chan ch).monitor.state := by
      rw [hs]; exact fun e => nomatch e
    have hchan := monitorClock_entered_chan hj hne
    have hdue : Channel.recoveryDue (s.chan ch) = true := by
      unfold Channel.recoveryDue Channel.listening; rw [hi, he, hs, hn]; rfl
    have hexec := exec_bitClock_as (exec_noclockRecovery s ch bit) hdue
    refine ⟨s.monitorClock ch bit, ⟨rfl, monitorClock_keeps s ch bit, ?_, monitorClock_entered_reports hj hne⟩, ?_, hexec⟩
    · rw [hchan]; rfl
    · rw [← hexec, exec_bitClock_line h hi, bitClock_noclock he hs]

/-- Settles O18: the 64th transition enters ACTIVE, and the 512th bit clock short of it begins a new window. -/
theorem quietWindow : Obligations.QuietWindow := by
  intro ch bit s h hi he hs
  refine ⟨fun hc hw => ?active, fun hp hlt => ?window⟩
  case active =>
    have hn : (s.chan ch).monitor.nextTransitions bit = 64 := by rw [nextTransitions_eq, if_pos hc, hw]
    have hj := judge_toActive (ticks := (s.chan ch).prog.timeoutTicks) hs hn
    have hne : ({ (s.chan ch).monitor with
        state := .active, quietRun := 0, windowPosition := 0, windowTransitions := 0 } : Monitor).state
        ≠ (s.chan ch).monitor.state := by
      rw [hs]; exact fun e => nomatch e
    have hchan := monitorClock_entered_chan hj hne
    have hdue : Channel.activeDue bit (s.chan ch) = true := by
      unfold Channel.activeDue Channel.listening; rw [hi, he, hs, hn]; rfl
    have hexec := exec_bitClock_as (exec_activeEntry s ch bit) hdue
    refine ⟨s.monitorClock ch bit, rfl, ?_, hexec, monitorClock_keeps s ch bit, ?_, ?_, monitorClock_entered_reports hj hne⟩
    · rw [← hexec, exec_bitClock_line h hi, bitClock_taken he (by rw [hs]; decide)]
    · rw [hchan]
    · rw [hchan]; rfl
  case window =>
    have hn : (s.chan ch).monitor.nextTransitions bit ≠ 64 := by rw [nextTransitions_eq]; exact Nat.ne_of_lt hlt
    have hp' : (s.chan ch).monitor.windowPosition + 1 = 512 := by rw [hp]
    have hdue : Channel.windowEndDue bit (s.chan ch) = true := by
      unfold Channel.windowEndDue Channel.listening; rw [hi, he, hs, hp', bne_iff_ne.2 hn]; rfl
    have hexec := exec_bitClock_as (exec_quietWindowEnd s ch bit) hdue
    refine ⟨?_, monitorClock_counted (judge_windowEnd hs hn hp') rfl, hexec⟩
    rw [← hexec, exec_bitClock_line h hi, bitClock_taken he (by rw [hs]; decide)]

/-! ## The gap timer -/

/-- R84, R85: a program held for a boundary applies on a RUNNING channel, and is pending no more. -/
theorem takeHeldFraming_held {q : Program} (hr : (s.chan ch).prog.runState = .running)
    (hq : (s.chan ch).prog.held = some q) :
    s.takeHeldFraming ch = (s.modProg ch fun p => { p with held := none }).apply ch q := by
  unfold State.takeHeldFraming State.takeHeld
  rw [if_pos hr, hq]

theorem takeHeldFraming_none (h : (s.chan ch).prog.runState ≠ .running ∨ (s.chan ch).prog.held = none) :
    s.takeHeldFraming ch = s := by
  unfold State.takeHeldFraming State.takeHeld
  split
  · rename_i hr
    rw [h.resolve_left fun e => e hr]
  · rfl

theorem lockLost_reports (s : State) (ch : Chan) (reason : LossReason) :
    s.Reports (s.lockLost ch reason) [(some ch, .lockLost reason (s.chan ch).sync.frameNumber)] :=
  (hand_reports (s.count ch fun c => { c with losses := saturate c.losses 1 }) (some ch)
    (.lockLost reason (s.chan ch).sync.frameNumber)).copy rfl rfl rfl (truncate_events _ ch)

/-- R21, R24: a clock loss reports the lock it loses, if there was one. -/
theorem clockLost_reports (s : State) (ch : Chan) : s.Reports (s.clockLost ch)
    (if (s.chan ch).sync.state = .lock ∨ (s.chan ch).sync.state = .flywheel then
      [(some ch, .lockLost .clock (s.chan ch).sync.frameNumber)] else []) := by
  have lost : s.Reports (((s.modSync ch (·.clear.toSearch)).lockLost ch .clock).statusChanged ch)
      [(some ch, .lockLost .clock (s.chan ch).sync.frameNumber)] := by
    have h := lockLost_reports (s.modSync ch (·.clear.toSearch)) ch .clock
    rw [chan_modSync] at h
    exact h.copy rfl rfl rfl rfl
  unfold State.clockLost
  cases hs : (s.chan ch).sync.state with
  | off => exact reports_none rfl
  | search => exact reports_none rfl
  | check => exact reports_none rfl
  | lock => exact lost
  | flywheel => exact lost

/-- R37, R42: entry to NOCLOCK reports the change of activity, and then the lock it loses. -/
theorem enterNoclock_reports (s : State) (ch : Chan) : s.Reports (s.enterNoclock ch)
    ((some ch, .activity .noclock)
      :: if (s.chan ch).sync.state = .lock ∨ (s.chan ch).sync.state = .flywheel then
        [(some ch, .lockLost .clock (s.chan ch).sync.frameNumber)] else []) := by
  have h := activityEntered_reports (s.modMonitor ch (·.toNoclock)) ch .noclock
  have k := clockLost_reports ((s.modMonitor ch (·.toNoclock)).activityEntered ch .noclock) ch
  have keeps := activityEntered_keeps (s.modMonitor ch (·.toNoclock)) ch .noclock
  rw [activityEntered_chan, chan_modMonitor] at k
  refine (h.trans k keeps.device keeps.timebase).copy rfl rfl rfl ?_
  exact truncate_events _ ch

/-- Settles O19: entry to NOCLOCK, as a truncation of what the monitor and the synchronizer leave, and then the held program. -/
theorem gapTimerExpiry : Obligations.GapTimerExpiry := by
  refine ⟨fun ch s => ⟨fun hr q hq => takeHeldFraming_held hr hq, takeHeldFraming_none⟩, fun ch s h he hn => ?_⟩
  have hchan := enterNoclock_chan s ch
  obtain ⟨hprog, hsync, hmon⟩ := Channel.truncated_blocks ch _
  rw [← hchan] at hprog hsync hmon
  refine ⟨s.modChan ch fun c => { c with
    monitor := c.monitor.toNoclock
    sync := c.sync.afterClockLoss
    stats := { c.stats with counters := (c.stats.counters.activityEntered .noclock).lostFrom c.sync } },
    s.enterNoclock ch, ?exec, enterNoclock_keeps s ch, ?truncated, ?before, hmon, hprog, ?fill, ?sync,
    enterNoclock_reports s ch, statusChanged_waits _ ch⟩
  case exec =>
    rw [exec_gapTimerExpiry, live_next _ h, Channel.gapRunning, if_pos (by rw [he, bne_iff_ne.2 hn]; rfl)]
    rfl
  case truncated => rw [hchan, truncate_chan, chan_modChan]
  case before => rw [chan_modChan, hmon, hsync]; rfl
  case fill => rw [hchan]; exact Channel.truncated_fill ch _
  case sync => rw [hsync]; rfl

end Sys2Proof.Machine
end

section
/-! PROOFS. The Frame Synchronizer (R2 to R19): its own steps, the bits taken in SEARCH, and the decisions in CHECK. -/

namespace Sys2Proof.Machine

variable {s t : State} {ch : Chan} {bit : Bool} {y : Synchronizer} {r : RunProgram}

/-! ## The synchronizer's own steps -/

/-- R2: while the history has room, no bit leaves it for the spill bits. -/
theorem take_spill_room (hl : y.history.length < 64) (hs : y.spill.length ≤ 2) : (y.take r bit).spill = y.spill := by
  have hd : ((bit != y.inverted) :: y.history).drop 64 = [] := List.drop_eq_nil_of_le hl
  show (((bit != y.inverted) :: y.history).drop 64 ++ y.spill).take 2 = y.spill
  rw [hd, List.nil_append, List.take_of_length_le hs]

/-- R2: a full history gives its oldest bit to the spill bits. -/
theorem take_spill_full {h : List Bool} {old : Bool} (hh : y.history = h ++ [old]) (hl : y.history.length = 64) :
    (y.take r bit).spill = (old :: y.spill).take 2 := by
  have hlen : h.length = 63 := by rw [hh, List.length_append] at hl; exact Nat.succ.inj hl
  show (y.history.drop 63 ++ y.spill).take 2 = (old :: y.spill).take 2
  rw [hh, ← hlen, List.drop_left]
  rfl

theorem distanceOf_eq (history : List Bool) (r : RunProgram) : distanceOf history r
    = (List.range r.syncLength).countP fun i =>
      r.syncMask.getLsbD i && (history.getD i false != r.syncPattern.getLsbD i) :=
  List.countP_eq_length_filter.symm

theorem maskedCount_eq (length : Nat) (mask : Dword) :
    maskedCount length mask = (List.range length).countP fun i => mask.getLsbD i :=
  List.countP_eq_length_filter.symm

/-- R17: the bits handed with a frame are those held, the latest last. -/
theorem frameBits_get {syncLength position : Nat} (h : syncLength + position ≤ y.history.length + y.spill.length) :
    (y.frameBits syncLength position).length = syncLength + position
      ∧ ∀ i, i < syncLength + position → (y.frameBits syncLength position)[i]?
        = (y.history ++ y.spill)[syncLength + position - 1 - i]? := by
  have hlen : ((y.history ++ y.spill).take (syncLength + position)).length = syncLength + position := by
    rw [List.length_take, List.length_append, Nat.min_eq_left h]
  unfold Synchronizer.frameBits
  refine ⟨by rw [List.length_reverse, hlen], fun i hi => ?_⟩
  rw [List.getElem?_reverse (by rw [hlen]; exact hi), hlen, List.getElem?_take_of_lt (by omega)]

/-- Settles O20: the fields of a bit taken, of the bits handed, and of a frame begun. -/
theorem synchronizerSteps : Obligations.SynchronizerSteps := by
  refine ⟨fun y r bit => ?taken, fun y l p h => frameBits_get h, fun y k now => ?begun⟩
  case taken =>
    refine ⟨rfl, fun _ => List.length_take .., take_spill_room, fun h old => take_spill_full, rfl, rfl, fun h => ?_,
      fun h => ?_, fun d => ?_, rfl, fun d tolerance => ⟨rfl, rfl⟩⟩
    · exact if_neg (Nat.not_le.2 h)
    · exact (if_pos h).trans (congrArg some (distanceOf_eq _ r))
    · exact congrArg (fun m => some (m - d)) (maskedCount_eq _ _)
  case begun =>
    refine ⟨⟨rfl, rfl, rfl, rfl, rfl, rfl, rfl, rfl⟩, ?state, rfl, rfl, rfl, rfl, rfl, rfl, rfl, rfl, rfl, rfl, rfl⟩
    case state => show k.kind.state = _; cases k.kind <;> rfl

/-! ## What reaches the synchronizer past the monitor -/

/-- The blocks and the counters of a channel that its monitor leaves as they were. -/
structure PastMonitor (ch : Chan) (s t : State) : Prop where
  prog : (t.chan ch).prog = (s.chan ch).prog
  sync : (t.chan ch).sync = (s.chan ch).sync
  capture : (t.chan ch).capture = (s.chan ch).capture
  counters : ∃ quiet noclock, (t.chan ch).stats.counters
    = { (s.chan ch).stats.counters with quietEntries := quiet, noclockEntries := noclock }

theorem monitorClock_past (s : State) (ch : Chan) (bit : Bool) : PastMonitor ch s (s.monitorClock ch bit) := by
  obtain ⟨st, hc, _, hst⟩ := monitorClock_chan s ch bit
  rw [show st = ((s.monitorClock ch bit).chan ch).stats by rw [hc]] at hst
  exact ⟨by rw [hc], by rw [hc], by rw [hc], _, _, hst⟩

/-! ## SEARCH -/

theorem takeBit_search (hp : (s.chan ch).prog.settings = some r) (hs : (s.chan ch).sync.state = .search) :
    s.takeBit ch bit = (s.modSync ch fun _ => (s.chan ch).sync.take r bit).searchBit ch r
      ((s.chan ch).sync.take r bit).lastDistance := by
  unfold State.takeBit
  dsimp only
  rw [hp, hs]
  rfl

theorem enterCheck_chan (s : State) (ch : Chan) :
    (s.enterCheck ch).chan ch = { s.chan ch with sync := (s.chan ch).sync.toCheck } := by
  unfold State.enterCheck
  rw [statusChanged_chan, chan_modSync]

theorem polarityFlip_chan (s : State) (ch : Chan) (d : Option Nat) : (s.polarityFlip ch d).chan ch = { s.chan ch with
    sync := (s.chan ch).sync.flip d
    stats := { (s.chan ch).stats with
      counters := { (s.chan ch).stats.counters with
        polarityFlips := saturate (s.chan ch).stats.counters.polarityFlips 1 } } } := by
  unfold State.polarityFlip
  rw [hand_chan, chan_count, chan_modSync]

theorem polarityFlip_reports (s : State) (ch : Chan) (d : Option Nat) :
    s.Reports (s.polarityFlip ch d) [(some ch, .polarityFlip (!(s.chan ch).sync.inverted))] :=
  (hand_reports ((s.modSync ch (·.flip d)).count ch fun c => { c with polarityFlips := saturate c.polarityFlips 1 })
    (some ch) (.polarityFlip (!(s.chan ch).sync.inverted))).copy rfl rfl rfl rfl

/-- R7, R8, R18: a bit in SEARCH without effect on the sync state. -/
theorem searchBit_none {d : Option Nat} (h : (s.chan ch).sync.exhausted = true
    ∨ ¬within d r.searchTol = true ∧ ¬(r.autoPolarity = true ∧ within (complementDistance r d) r.searchTol = true)) :
    s.searchBit ch r d = s := by
  unfold State.searchBit
  split
  · rfl
  · rename_i he
    obtain ⟨hm, hf⟩ := h.resolve_left he
    rw [if_neg hm, if_neg hf]

/-- R7: a match enters CHECK. -/
theorem searchBit_match {d : Option Nat} (he : (s.chan ch).sync.exhausted = false) (hm : within d r.searchTol = true) :
    s.searchBit ch r d = s.enterCheck ch := by
  unfold State.searchBit
  rw [if_neg (Bool.eq_false_iff.1 he), if_pos hm]

/-- R8: a match in the complement flips the polarity first. -/
theorem searchBit_flip {d : Option Nat} (he : (s.chan ch).sync.exhausted = false) (hm : ¬within d r.searchTol = true)
    (hf : r.autoPolarity = true ∧ within (complementDistance r d) r.searchTol = true) :
    s.searchBit ch r d = (s.polarityFlip ch (complementDistance r d)).enterCheck ch := by
  unfold State.searchBit
  rw [if_neg (Bool.eq_false_iff.1 he), if_neg hm, if_pos hf]

/-- Settles O21: the branches of a bit taken in SEARCH, past a monitor that leaves the synchronizer as it was. -/
theorem searchBit : Obligations.SearchBit := by
  intro ch bit r s h hi he hn hp hs u0 y matched flipped
  have past := monitorClock_past s ch bit
  have taken : exec (.bitClock ch bit) s
      = .next ((u0.modSync ch fun _ => y).searchBit ch r y.lastDistance).arbitrate := by
    rw [bitClock_delivered ch bit s h hi he hn,
      takeBit_search (by rw [past.prog]; exact hp) (by rw [past.sync]; exact hs), past.sync]
  let v := u0.modSync ch fun _ => y
  have hv : v.chan ch = { u0.chan ch with sync := y } := chan_modSync ..
  have hsync : (v.chan ch).sync = y := by rw [hv]
  have keeps : KeepsBut ch s v := (monitorClock_keeps s ch bit).trans (modSync_keeps u0 ch _)
  refine ⟨fun hnone => ?none, fun hx hm => ?hit, fun hx hm hf => ?complement⟩
  case none => rw [taken, searchBit_none (s := v) (by rw [hsync]; exact hnone)]
  case hit =>
    refine ⟨v.enterCheck ch, ?_, keeps.trans (enterCheck_keeps v ch), ?_, statusChanged_waits _ ch⟩
    · rw [taken, searchBit_match (s := v) (by rw [hsync]; exact hx) hm]
    · rw [enterCheck_chan, hv]; rfl
  case complement =>
    let w := v.polarityFlip ch (complementDistance r y.lastDistance)
    have hw := polarityFlip_chan v ch (complementDistance r y.lastDistance)
    refine ⟨w.enterCheck ch, ?_, (keeps.trans (polarityFlip_keeps v ch _)).trans (enterCheck_keeps w ch), ?_, ?_,
      statusChanged_waits _ ch⟩
    · rw [taken, searchBit_flip (s := v) (by rw [hsync]; exact hx) hm hf]
    · obtain ⟨_, _, hcount⟩ := past.counters
      have hflips : (u0.chan ch).stats.counters.polarityFlips = (s.chan ch).stats.counters.polarityFlips := by
        show ((s.monitorClock ch bit).chan ch).stats.counters.polarityFlips = _
        rw [hcount]
      rw [enterCheck_chan, hw, hv, hflips]
      rfl
    · have hr := polarityFlip_reports v ch (complementDistance r y.lastDistance)
      rw [hsync] at hr
      exact hr.copy rfl rfl rfl rfl

/-! ## What a decision's outcome does -/

theorem PerChannel.set_get {α : Type} (p : PerChannel α) (ch : Chan) : p.set ch (p.get ch) = p := by cases ch <;> rfl

theorem PerChannel.set_set {α : Type} (p : PerChannel α) (ch : Chan) (v w : α) : (p.set ch v).set ch w = p.set ch w := by
  cases ch <;> rfl

/-- A count that changes no counter. -/
theorem count_same (s : State) (ch : Chan) {f : Counters → Counters} (h : ∀ c, f c = c) : s.count ch f = s := by
  rw [funext (g := id) h]
  exact congrArg (fun p => ({ s with chans := p } : State)) (PerChannel.set_get s.chans ch)

theorem modChan_modChan (s : State) (ch : Chan) (f g : Channel → Channel) :
    (s.modChan ch f).modChan ch g = s.modChan ch fun c => g (f c) := by
  unfold State.modChan State.chan
  rw [PerChannel.get_set, PerChannel.set_set]

theorem modSync_modSync (s : State) (ch : Chan) (f g : Synchronizer → Synchronizer) :
    (s.modSync ch f).modSync ch g = s.modSync ch fun y => g (f y) := modChan_modChan ..

theorem sampleSlot_outstanding (s : State) (ch : Chan) : (s.sampleSlot ch).port.outstanding (.slotRead ch) = true :=
  requestRead_outstanding s (.slotRead ch)

theorem conclude_checked (s : State) (ch : Chan) (r : RunProgram) :
    s.conclude ch r .checked = (s.modSync ch (·.checked)).boundary ch := rfl

theorem conclude_lost (s : State) (ch : Chan) (r : RunProgram) : s.conclude ch r .lost = (s.syncLost ch).boundary ch := rfl

/-- R18: a decision that would begin a frame once the frame numbers are used up. -/
theorem conclude_exhausted (k : FrameStart) (h : (s.chan ch).sync.exhausted = true) : s.conclude ch r (.begun k)
    = ((s.count ch (Counters.accepted · k)).syncLost ch).boundary ch := if_pos h

/-- R16: a decision that begins a frame. -/
theorem conclude_begun (k : FrameStart) (h : (s.chan ch).sync.exhausted = false) : s.conclude ch r (.begun k)
    = ((s.frameBegun ch k).boundary ch).frameJudged ch ((s.chan ch).sync.frame k s.timebase)
      ((s.chan ch).sync.frameBits r.syncLength k.position) := if_neg (Bool.eq_false_iff.1 h)

/-- R9: a return to SEARCH with no lock to lose. -/
theorem syncLost_unlocked (h : (s.chan ch).sync.framing = false) :
    s.syncLost ch = (s.modSync ch (·.toSearch)).statusChanged ch := by
  unfold State.syncLost
  dsimp only
  rw [if_neg (Bool.eq_false_iff.1 h)]

/-- R10: the decision that completes CHECK is reported. -/
theorem frameBegun_first_reports {k : FrameStart} (hk : k.kind = .first) (hs : (s.chan ch).sync.state ≠ .lock) :
    s.Reports (s.frameBegun ch k)
        [(some ch, .lockAcquired (s.chan ch).sync.inverted ((s.chan ch).sync.begin k).frameNumber)]
      ∧ (s.frameBegun ch k).port.waiting (.statusWrite ch) = true := by
  have hstate : (s.chan ch).sync.state ≠ k.kind.state := by rw [hk]; exact hs
  have hr := hand_reports (((s.modSync ch (·.begin k)).count ch fun c => (c.accepted k).framed k).restartPhase ch) (some ch)
    (.lockAcquired ((s.chan ch).sync.begin k).inverted ((s.chan ch).sync.begin k).frameNumber)
  unfold State.frameBegun
  dsimp only
  rw [if_pos hk, if_neg hstate]
  refine ⟨?_, statusChanged_waits _ ch⟩
  unfold State.lockAcquired
  rw [chan_count, chan_modSync]
  exact hr.copy rfl rfl rfl rfl

/-! ## CHECK -/

/-- R9: at the exact position in CHECK the decision falls due. -/
theorem decisionBit_check {d early : Option Nat} (ho : (s.chan ch).sync.heldOpen = none)
    (hp : (s.chan ch).sync.position = r.frameLength) (hs : (s.chan ch).sync.state = .check) :
    s.decisionBit ch r d early = s.conclude ch r ((s.chan ch).sync.decideCheck r d) := by
  unfold State.decisionBit
  dsimp only
  rw [ho]
  exact (if_pos hp).trans (if_pos hs)

theorem decideCheck_fails {d : Option Nat} (h : within d r.checkTol = false) : y.decideCheck r d = .lost :=
  if_neg (Bool.eq_false_iff.1 h)

theorem decideCheck_checked {d : Option Nat} (h : within d r.checkTol = true) (hc : y.checkCount + 1 < r.checkCount) :
    y.decideCheck r d = .checked := (if_pos h).trans (if_pos hc)

theorem decideCheck_completes {d : Option Nat} (h : within d r.checkTol = true) (hc : r.checkCount ≤ y.checkCount + 1) :
    y.decideCheck r d = .begun ⟨.first, 0, d.getD 0⟩ := (if_pos h).trans (if_neg (Nat.not_lt.2 hc))

/-- R71, R74, R85: a boundary applies the held program, and then samples the slot unless its read is outstanding. -/
theorem boundary_samples (s : State) (ch : Chan) :
    ((s.takeHeldFraming ch).port.outstanding (.slotRead ch) = true → s.boundary ch = s.takeHeldFraming ch)
      ∧ ((s.takeHeldFraming ch).port.outstanding (.slotRead ch) = false →
        s.boundary ch = (s.takeHeldFraming ch).request (.slotRead ch))
      ∧ (s.boundary ch).port.outstanding (.slotRead ch) = true :=
  ⟨fun h => if_pos h, fun h => if_neg (Bool.eq_false_iff.1 h), sampleSlot_outstanding _ ch⟩

/-- Settles O22: the decision in CHECK, with each outcome followed by the boundary. -/
theorem checkDecision : Obligations.CheckDecision := by
  refine ⟨fun ch s => boundary_samples s ch, fun ch bit r s h hi he hn hp hs ho hpos => ?_⟩
  intro u0 y
  have past := monitorClock_past s ch bit
  let v := u0.modSync ch fun _ => y
  have hv : v.chan ch = { u0.chan ch with sync := y } := chan_modSync ..
  have hsync : (v.chan ch).sync = y := by rw [hv]
  have hy : y.state = .check := hs
  have keeps : KeepsBut ch s v := (monitorClock_keeps s ch bit).trans (modSync_keeps u0 ch _)
  have hyp : y.position = r.frameLength := (if_neg (by rw [hs]; exact fun e => nomatch e)).trans hpos
  have hdue : Channel.checkDue (s.chan ch) = true := by
    unfold Channel.checkDue Channel.delivers Channel.listening Channel.atExact
    rw [hi, he, bne_iff_ne.2 hn, hs, hp, ho, Option.any_some, beq_iff_eq.2 hpos]
    rfl
  have hexec := exec_bitClock_as (exec_checkDecision s ch bit) hdue
  have decided : exec (.checkDecision ch bit) s
      = .next (v.conclude ch r (y.decideCheck r y.lastDistance)).arbitrate := by
    rw [← hexec, bitClock_delivered ch bit s h hi he hn,
      takeBit_check _ ch bit r (by rw [past.prog]; exact hp) (by rw [past.sync]; exact hs), past.sync]
    rw [decisionBit_check (s := v) (by rw [hsync]; exact ho) (by rw [hsync]; exact hyp) (by rw [hsync]; exact hy), hsync]
  refine ⟨hexec, fun hw hc => ?checked, fun hl => ?lost, fun d hd hle hc hx => ?first⟩
  case checked =>
    rw [decided, decideCheck_checked hw hc, conclude_checked, modSync_modSync]
    rfl
  case lost =>
    -- a failure, or a success that R18 turns into one: it counts nothing in CHECK
    have hlost : v.conclude ch r (y.decideCheck r y.lastDistance) = (v.syncLost ch).boundary ch := by
      cases hw : within y.lastDistance r.checkTol with
      | false => rw [decideCheck_fails hw, conclude_lost]
      | true =>
        obtain ⟨hc, hx⟩ := hl.resolve_left (by rw [hw]; exact fun e => nomatch e)
        rw [decideCheck_completes hw hc, conclude_exhausted _ (by rw [hsync]; exact hx)]
        exact congrArg (fun u : State => (u.syncLost ch).boundary ch) (count_same v ch fun _ => rfl)
    have hu : v.syncLost ch = (v.modSync ch (·.toSearch)).statusChanged ch :=
      syncLost_unlocked (by rw [hsync]; unfold Synchronizer.framing; rw [hy])
    refine ⟨v.syncLost ch, by rw [decided, hlost], keeps.trans (syncLost_keeps v ch), ?_, ?_, ?_⟩
    · rw [hu, statusChanged_chan, chan_modSync, hv]; rfl
    · rw [hu]; rfl
    · rw [hu]; exact statusChanged_waits _ ch
  case first =>
    let k : FrameStart := ⟨.first, 0, d⟩
    have hverdict : y.decideCheck r y.lastDistance = .begun k := by
      rw [decideCheck_completes (by rw [hd]; exact decide_eq_true hle) hc, hd]; rfl
    obtain ⟨hreports, hwaits⟩ := frameBegun_first_reports (s := v) (ch := ch) (k := k) rfl
      (by rw [hsync, hy]; exact fun e => nomatch e)
    rw [hsync] at hreports
    refine ⟨v.frameBegun ch k, ?_, keeps.trans (frameBegun_keeps v ch k), ?_, hreports.copy rfl rfl rfl rfl, hwaits⟩
    · rw [decided, hverdict, conclude_begun k (by rw [hsync]; exact hx), hsync, keeps.timebase]
    · obtain ⟨_, _, hcount⟩ := past.counters
      have hframes : (u0.chan ch).stats.counters.framesLocked = (s.chan ch).stats.counters.framesLocked := by
        show ((s.monitorClock ch bit).chan ch).stats.counters.framesLocked = _
        rw [hcount]
      rw [frameBegun_chan, hv, ← hframes, ← past.capture]
      rfl

end Sys2Proof.Machine
end

section
/-! PROOFS. The decisions in LOCK and FLYWHEEL (R11 to R20): at the exact position, and held open for the late one. -/

namespace Sys2Proof.Machine

variable {s z w : State} {ch : Chan} {bit : Bool} {y : Synchronizer} {r : RunProgram} {c : Channel}
  {frames flywheels errors losses slips : Word}

/-! ## What a decision moves on its channel -/

/-- A channel whose synchronizer and whose counters of R20 are these. -/
def Channel.moved (c : Channel) (sync : Synchronizer) (frames flywheels errors losses slips : Word) : Channel :=
  { c with
    sync := sync
    stats := { c.stats with
      counters := { c.stats.counters with
        framesLocked := frames, flywheelFrames := flywheels, syncBitErrors := errors, losses := losses, slips := slips } } }

/-- R20: the sync bit errors after an accepted decision of this kind. -/
def FrameStart.errorsAfter (k : FrameStart) (errors : Word) : Word :=
  match k.kind with
  | .first | .flywheel => errors
  | .exact | .early | .late => saturate errors k.distance

/-- R20: the slips after an accepted decision of this kind. -/
def FrameStart.slipsAfter (k : FrameStart) (slips : Word) : Word :=
  match k.kind with
  | .first | .flywheel | .exact => slips
  | .early | .late => saturate slips 1

/-- R16, R20: a frame begun in LOCK or FLYWHEEL. -/
theorem frameBegun_moved {k : FrameStart} (hk : k.kind ≠ .first)
    (hz : z.chan ch = c.moved y frames flywheels errors losses slips) : (z.frameBegun ch k).chan ch
      = c.moved (y.begin k) (saturate frames 1) (if k.kind = .flywheel then saturate flywheels 1 else flywheels)
        (k.errorsAfter errors) losses (k.slipsAfter slips) := by
  obtain ⟨kind, position, distance⟩ := k
  rw [frameBegun_chan, hz]
  cases kind with
  | first => exact absurd rfl hk
  | exact => rfl
  | early => rfl
  | late => rfl
  | flywheel => rfl

theorem frameBegun_events {k : FrameStart} (hk : k.kind ≠ .first) : (z.frameBegun ch k).events = z.events := by
  unfold State.frameBegun
  dsimp only
  rw [if_neg hk]
  split <;> rfl

/-- R30: a change between LOCK and FLYWHEEL is shown in the slot. -/
theorem frameBegun_waits {k : FrameStart} (h : (z.chan ch).sync.state ≠ k.kind.state) :
    (z.frameBegun ch k).port.waiting (.statusWrite ch) = true := by
  unfold State.frameBegun
  dsimp only
  rw [if_neg h]
  exact statusChanged_waits _ ch

/-- R20: an accepted decision counts, even when R18 keeps it from beginning a frame. -/
theorem count_accepted_moved (k : FrameStart) (hz : z.chan ch = c.moved y frames flywheels errors losses slips) :
    (z.count ch (Counters.accepted · k)).chan ch
      = c.moved y frames flywheels (k.errorsAfter errors) losses (k.slipsAfter slips) := by
  obtain ⟨kind, position, distance⟩ := k
  rw [chan_count, hz]
  cases kind <;> rfl

/-- R13, R15, R24: a lock lost by misses. -/
theorem syncLost_moved (hw : w.chan ch = c.moved y frames flywheels errors losses slips) (hf : y.framing = true) :
    ∃ x : State, w.syncLost ch = (x.truncate ch).request (.statusWrite ch) ∧ ((w.syncLost ch).chan ch).capture.fill = none
      ∧ x.chan ch = c.moved y.toSearch frames flywheels errors (saturate losses 1) slips
      ∧ w.Reports (w.syncLost ch) [(some ch, .lockLost .misses y.frameNumber)]
      ∧ (w.syncLost ch).port.waiting (.statusWrite ch) = true := by
  have hy : (w.chan ch).sync = y := by rw [hw]; rfl
  obtain ⟨x, hu, hx, hr⟩ := syncLost_framing w ch (by rw [hy]; exact hf)
  rw [hy] at hr
  refine ⟨x, hu, ?_, ?_, ?_, ?_⟩
  · rw [hu, request_chan]; exact truncate_fill x ch
  · rw [hx, hw]; rfl
  · rw [hu]; exact hr.copy rfl rfl rfl (truncate_events x ch)
  · rw [hu]; exact request_waits _ _

/-! ## A bit handed on -/

theorem next_arbitrate {u v : State} (h : u = v) :
    (Host.Outcome.next u.arbitrate : Host.Outcome State Fault Refusal) = .next v.arbitrate := by rw [h]

/-- The state once the monitor has counted the bit clock and the bit is taken and handed on for the frame in progress. -/
def State.handed (s : State) (ch : Chan) (bit : Bool) (r : RunProgram) : State :=
  let y := (s.chan ch).sync.take r bit
  ((s.monitorClock ch bit).modSync ch fun _ => y).captureBit ch (r.syncLength - 1 + y.position) (bit != y.inverted)

theorem handed_keeps (s : State) (ch : Chan) (bit : Bool) (r : RunProgram) : KeepsBut ch s (s.handed ch bit r) :=
  ((monitorClock_keeps s ch bit).trans (modSync_keeps _ ch _)).trans (captureBit_keeps _ ch _ _)

theorem handed_events (s : State) (ch : Chan) (bit : Bool) (r : RunProgram) :
    (s.handed ch bit r).events = (s.monitorClock ch bit).events := captureBit_events _ ch _ _

/-- The bit handed on leaves the synchronizer that has taken it, and the counters of R20. -/
theorem handed_moved (s : State) (ch : Chan) (bit : Bool) (r : RunProgram) :
    (s.handed ch bit r).chan ch = ((s.handed ch bit r).chan ch).moved ((s.chan ch).sync.take r bit)
      (s.chan ch).stats.counters.framesLocked (s.chan ch).stats.counters.flywheelFrames
      (s.chan ch).stats.counters.syncBitErrors (s.chan ch).stats.counters.losses (s.chan ch).stats.counters.slips := by
  obtain ⟨_, _, hcount⟩ := (monitorClock_past s ch bit).counters
  have units : KeepsUnits ch ((s.monitorClock ch bit).modSync ch fun _ => (s.chan ch).sync.take r bit)
    (s.handed ch bit r) := captureBit_units _ ch _ _
  have hsync := units.sync
  have hframes := units.framesLocked
  have hflywheels := units.flywheelFrames
  have herrors := units.syncBitErrors
  have hlosses := units.losses
  have hslips := units.slips
  rw [chan_modSync] at hsync hframes hflywheels herrors hlosses hslips
  dsimp only at hsync hframes hflywheels herrors hlosses hslips
  rw [hcount] at hframes hflywheels herrors hlosses hslips
  unfold Channel.moved
  rw [← hsync, ← hframes, ← hflywheels, ← herrors, ← hlosses, ← hslips]

theorem handed_sync (s : State) (ch : Chan) (bit : Bool) (r : RunProgram) :
    ((s.handed ch bit r).chan ch).sync = (s.chan ch).sync.take r bit := by rw [handed_moved]; rfl

/-- R17, R33: a bit clock in LOCK or FLYWHEEL hands its bit on and then decides. -/
theorem bitClock_handed (h : s.resetHeld = false) (hi : (s.chan ch).prog.input = .line)
    (he : (s.chan ch).monitor.evaluating = true) (hn : (s.chan ch).monitor.state ≠ .noclock)
    (hp : (s.chan ch).prog.settings = some r)
    (hf : (s.chan ch).sync.state = .lock ∨ (s.chan ch).sync.state = .flywheel) :
    exec (.bitClock ch bit) s = .next ((s.handed ch bit r).decisionBit ch r
      ((s.chan ch).sync.take r bit).lastDistance (s.chan ch).sync.lastDistance).arbitrate := by
  have past := monitorClock_past s ch bit
  rw [bitClock_delivered ch bit s h hi he hn,
    takeBit_framing _ ch bit r (by rw [past.prog]; exact hp) (by rw [past.sync]; exact hf), past.sync]
  rfl

theorem framing_ne (h : y.state = .lock ∨ y.state = .flywheel) {a : SyncState} (ha : a ≠ .lock ∧ a ≠ .flywheel) :
    y.state ≠ a := fun e => h.elim (fun h => ha.1 (e.symm.trans h)) fun h => ha.2 (e.symm.trans h)

theorem framing_of_state (h : y.state = .lock ∨ y.state = .flywheel) : y.framing = true := by
  unfold Synchronizer.framing
  rcases h with h | h <;> rw [h]

theorem handed_begun {k : FrameStart} (hx : ((s.chan ch).sync.take r bit).exhausted = false) :
    (s.handed ch bit r).conclude ch r (.begun k) = (((s.handed ch bit r).frameBegun ch k).boundary ch).frameJudged ch
      (((s.chan ch).sync.take r bit).frame k s.timebase)
      (((s.chan ch).sync.take r bit).frameBits r.syncLength k.position) := by
  rw [conclude_begun k (by rw [handed_sync]; exact hx), handed_sync, (handed_keeps s ch bit r).timebase]

/-- R13, R15, R24: a lock lost after the bit was handed on, with what was counted in between. -/
theorem handed_lost (hk : KeepsBut ch (s.handed ch bit r) w) (hev : w.events = (s.handed ch bit r).events)
    (hw : w.chan ch = c.moved ((s.chan ch).sync.take r bit) frames flywheels errors losses slips)
    (hf : (s.chan ch).sync.state = .lock ∨ (s.chan ch).sync.state = .flywheel) :
    ∃ x : State, KeepsBut ch s (w.syncLost ch) ∧ w.syncLost ch = (x.truncate ch).request (.statusWrite ch)
      ∧ ((w.syncLost ch).chan ch).capture.fill = none
      ∧ x.chan ch = c.moved ((s.chan ch).sync.take r bit).toSearch frames flywheels errors (saturate losses 1) slips
      ∧ (s.monitorClock ch bit).Reports (w.syncLost ch) [(some ch, .lockLost .misses (s.chan ch).sync.frameNumber)]
      ∧ (w.syncLost ch).port.waiting (.statusWrite ch) = true := by
  obtain ⟨x, hu, hfill, hx, hr, hwait⟩ := syncLost_moved hw
    (framing_of_state (y := (s.chan ch).sync.take r bit) hf)
  have keeps := (handed_keeps s ch bit r).trans hk
  have hm := monitorClock_keeps s ch bit
  exact ⟨x, keeps.trans (syncLost_keeps w ch), hu, hfill, hx,
    hr.copy (hm.device.trans keeps.device.symm) (hm.timebase.trans keeps.timebase.symm)
      ((handed_events s ch bit r).symm.trans hev.symm) rfl, hwait⟩

/-! ## The verdicts -/

theorem miss_begins {position : Nat} {exact : Option Nat} (h : y.nextMiss ≤ r.flywheelLimit) :
    y.miss r position exact = .begun ⟨.flywheel, position, exact.getD r.syncLength⟩ := if_pos h

theorem miss_loses {position : Nat} {exact : Option Nat} (h : r.flywheelLimit < y.nextMiss) :
    y.miss r position exact = .lost := if_neg (Nat.not_le.2 h)

/-- R13, R15, R18: a miss beyond the flywheel limit, or one that would begin a frame once the numbers are used up. -/
theorem conclude_miss_lost {position : Nat} {exact : Option Nat} (hy : (z.chan ch).sync = y)
    (h : r.flywheelLimit < y.nextMiss ∨ y.exhausted = true) :
    z.conclude ch r (y.miss r position exact) = (z.syncLost ch).boundary ch := by
  rcases Nat.lt_or_ge r.flywheelLimit y.nextMiss with hlt | hge
  · rw [miss_loses hlt, conclude_lost]
  · have hx : (z.chan ch).sync.exhausted = true := by rw [hy]; exact h.resolve_left (Nat.not_lt.2 hge)
    rw [miss_begins hge, conclude_exhausted _ hx]
    exact congrArg (fun u : State => (u.syncLost ch).boundary ch) (count_same z ch fun _ => rfl)

theorem decideExact_accepts {d : Nat} (h : d ≤ r.lockTol) : y.decideExact r (some d) = some (.begun ⟨.exact, 0, d⟩) :=
  if_pos (decide_eq_true h)

theorem decideExact_open {d : Option Nat} (h : within d r.lockTol = false) (hw : r.slipWindow = 1) :
    y.decideExact r d = none := (if_neg (Bool.eq_false_iff.1 h)).trans (if_pos hw)

theorem decideExact_misses {d : Option Nat} (h : within d r.lockTol = false) (hw : r.slipWindow ≠ 1) :
    y.decideExact r d = some (y.miss r 0 d) := (if_neg (Bool.eq_false_iff.1 h)).trans (if_neg hw)

/-- R12: a slip is accepted at the early position, or else at the late one. -/
theorem decideLate_slips {h : HeldDecision} {d : Option Nat} {k : FrameStart}
    (hk : (r.slipWindow = 1 ∧ within h.early r.lockTol = true) ∧ k = ⟨.early, 2, h.early.getD 0⟩
      ∨ ¬(r.slipWindow = 1 ∧ within h.early r.lockTol = true) ∧ (r.slipWindow = 1 ∧ within d r.lockTol = true)
        ∧ k = ⟨.late, 0, d.getD 0⟩) : y.decideLate r h d = .begun k := by
  unfold Synchronizer.decideLate
  rcases hk with ⟨he, rfl⟩ | ⟨he, hl, rfl⟩
  · exact if_pos he
  · exact (if_neg he).trans (if_pos hl)

theorem decideLate_misses {h : HeldDecision} {d : Option Nat}
    (he : ¬(r.slipWindow = 1 ∧ within h.early r.lockTol = true)) (hl : ¬(r.slipWindow = 1 ∧ within d r.lockTol = true)) :
    y.decideLate r h d = y.miss r 1 h.exact := (if_neg he).trans (if_neg hl)

theorem decisionBit_exact {d early : Option Nat} (ho : (z.chan ch).sync.heldOpen = none)
    (hp : (z.chan ch).sync.position = r.frameLength)
    (hs : (z.chan ch).sync.state = .lock ∨ (z.chan ch).sync.state = .flywheel) : z.decisionBit ch r d early
      = match (z.chan ch).sync.decideExact r d with
        | some v => z.conclude ch r v
        | none => z.modSync ch fun y => { y with heldOpen := some ⟨d, early⟩ } := by
  have hne : (z.chan ch).sync.state ≠ .check := by rcases hs with h | h <;> rw [h] <;> exact fun e => nomatch e
  unfold State.decisionBit
  dsimp only
  rw [ho]
  exact (if_pos hp).trans (if_neg hne)

theorem decisionBit_late {d early : Option Nat} {h : HeldDecision} (ho : (z.chan ch).sync.heldOpen = some h)
    (hp : (z.chan ch).sync.position = r.frameLength + 1) :
    z.decisionBit ch r d early = z.conclude ch r ((z.chan ch).sync.decideLate r h d) := by
  unfold State.decisionBit
  dsimp only
  rw [ho]
  exact if_pos hp

/-! ## The decisions -/

/-- Settles O23: each verdict at the exact position, over the state that has handed the bit on. -/
theorem lockDecision : Obligations.LockDecision := by
  intro ch bit r s h hi he hn hp hf ho hpos y c z moved misses lost
  have keeps : KeepsBut ch s z := handed_keeps s ch bit r
  have hsync : (z.chan ch).sync = y := handed_sync s ch bit r
  have hmoved := handed_moved s ch bit r
  have hyp : y.position = r.frameLength := (if_neg (framing_ne hf (by decide))).trans hpos
  have hdue : Channel.lockDue (s.chan ch) = true := by
    unfold Channel.lockDue Channel.delivers Channel.listening Channel.atExact
    rw [hi, he, bne_iff_ne.2 hn, framing_of_state hf, hp, ho, Option.any_some, beq_iff_eq.2 hpos]
    rfl
  have hexec := exec_bitClock_as (exec_lockDecision s ch bit) hdue
  have hdecision := decisionBit_exact (z := z) (ch := ch) (r := r) (d := y.lastDistance)
    (early := (s.chan ch).sync.lastDistance) (by rw [hsync]; exact ho) (by rw [hsync]; exact hyp) (by rw [hsync]; exact hf)
  rw [hsync] at hdecision
  have decided : exec (.lockDecision ch bit) s = .next (z.decisionBit ch r y.lastDistance
      (s.chan ch).sync.lastDistance).arbitrate := hexec.symm.trans (bitClock_handed h hi he hn hp hf)
  have concluded : ∀ v, y.decideExact r y.lastDistance = some v →
      exec (.lockDecision ch bit) s = .next (z.conclude ch r v).arbitrate := fun v hv => by
    rw [decided, hdecision, hv]
  have begins : ∀ k : FrameStart, y.decideExact r y.lastDistance = some (.begun k) → y.exhausted = false →
      exec (.lockDecision ch bit) s = .next ((((z.frameBegun ch k).boundary ch).frameJudged ch (y.frame k s.timebase)
        (y.frameBits r.syncLength k.position)).arbitrate) := fun k hk hx =>
    (concluded _ hk).trans (next_arbitrate (handed_begun hx))
  refine ⟨hexec, fun d hd hle hx => ?accepted, fun hw hs => ?opened, fun hw hs hm hx => ?flywheel, fun hw hs hm => ?missed,
    fun d hd hle hx => ?exhausted⟩
  case accepted =>
    have hv : y.decideExact r y.lastDistance = some (.begun ⟨.exact, 0, d⟩) := by rw [hd]; exact decideExact_accepts hle
    refine ⟨z.frameBegun ch ⟨.exact, 0, d⟩, begins _ hv hx, keeps.trans (frameBegun_keeps z ch _),
      frameBegun_events (fun e => nomatch e), frameBegun_moved (fun e => nomatch e) hmoved, fun hs => ?_⟩
    exact frameBegun_waits (by rw [hsync, hs]; exact fun e => nomatch e)
  case opened =>
    refine ⟨?_, keeps⟩
    rw [decided, hdecision, decideExact_open hw hs, modSync_const, hsync]
  case flywheel =>
    have hv : y.decideExact r y.lastDistance = some (.begun ⟨.flywheel, 0, y.lastDistance.getD r.syncLength⟩) := by
      rw [decideExact_misses hw hs, miss_begins hm]
    refine ⟨z.frameBegun ch ⟨.flywheel, 0, y.lastDistance.getD r.syncLength⟩, begins _ hv hx,
      keeps.trans (frameBegun_keeps z ch _), frameBegun_events (fun e => nomatch e),
      frameBegun_moved (fun e => nomatch e) hmoved, fun hs => ?_⟩
    exact frameBegun_waits (by rw [hsync, hs]; exact fun e => nomatch e)
  case missed =>
    obtain ⟨x, hlost⟩ := handed_lost (Keeps.refl _ z) rfl hmoved hf
    exact ⟨x, z.syncLost ch, by rw [concluded _ (decideExact_misses hw hs), conclude_miss_lost hsync hm], hlost⟩
  case exhausted =>
    have hv : y.decideExact r y.lastDistance = some (.begun ⟨.exact, 0, d⟩) := by rw [hd]; exact decideExact_accepts hle
    obtain ⟨x, hlost⟩ := handed_lost (count_keeps z ch (Counters.accepted · ⟨.exact, 0, d⟩)) rfl
      (count_accepted_moved ⟨.exact, 0, d⟩ hmoved) hf
    exact ⟨x, _, by rw [concluded _ hv, conclude_exhausted _ (by rw [hsync]; exact hx)], hlost⟩

/-- Settles O24: each verdict at the late position, over the state that has handed the bit on. -/
theorem latePositionDecision : Obligations.LatePositionDecision := by
  intro ch bit r held s h hi he hn hp hf ho hpos y c z moved misses early late slipped lost
  have keeps : KeepsBut ch s z := handed_keeps s ch bit r
  have hsync : (z.chan ch).sync = y := handed_sync s ch bit r
  have hmoved := handed_moved s ch bit r
  have hyp : y.position = r.frameLength + 1 :=
    (if_neg (framing_ne hf (by decide))).trans (congrArg (· + 1) hpos)
  have hdue : Channel.lateDue (s.chan ch) = true := by
    unfold Channel.lateDue Channel.delivers Channel.listening Channel.atLate
    rw [hi, he, bne_iff_ne.2 hn, framing_of_state hf, hp, ho, Option.any_some, beq_iff_eq.2 hpos]
    rfl
  have hexec := exec_bitClock_as (exec_latePositionDecision s ch bit) hdue
  have concluded : exec (.latePositionDecision ch bit) s
      = .next (z.conclude ch r (y.decideLate r held y.lastDistance)).arbitrate := by
    have hdecision := decisionBit_late (z := z) (ch := ch) (r := r) (d := y.lastDistance)
      (early := (s.chan ch).sync.lastDistance) (by rw [hsync]; exact ho) (by rw [hsync]; exact hyp)
    rw [hsync] at hdecision
    rw [← hexec]
    exact (bitClock_handed h hi he hn hp hf).trans (next_arbitrate hdecision)
  have begins : ∀ k : FrameStart, y.decideLate r held y.lastDistance = .begun k → y.exhausted = false →
      exec (.latePositionDecision ch bit) s = .next ((((z.frameBegun ch k).boundary ch).frameJudged ch
        (y.frame k s.timebase) (y.frameBits r.syncLength k.position)).arbitrate) := fun k hk hx => by
    rw [concluded, hk]
    exact next_arbitrate (handed_begun hx)
  have slips : ∀ k : FrameStart, slipped k → k.kind ≠ .first ∧ k.kind.state = .lock
      ∧ k.kind ≠ .flywheel ∧ (∀ e, k.errorsAfter e = saturate e k.distance) ∧ ∀ n, k.slipsAfter n = saturate n 1 := by
    rintro k (⟨_, rfl⟩ | ⟨_, _, rfl⟩)
    · exact ⟨(fun e => nomatch e), rfl, (fun e => nomatch e), fun _ => rfl, fun _ => rfl⟩
    · exact ⟨(fun e => nomatch e), rfl, (fun e => nomatch e), fun _ => rfl, fun _ => rfl⟩
  refine ⟨hexec, fun k hx hk => ?accepted, fun hne hnl hm hx => ?flywheel, fun hne hnl hm => ?missed,
    fun k hx hk => ?exhausted⟩
  case accepted =>
    obtain ⟨hfirst, hlock, hfly, herrors, hslips⟩ := slips k hk
    have hchan := frameBegun_moved hfirst hmoved
    rw [herrors, hslips, if_neg hfly] at hchan
    refine ⟨z.frameBegun ch k, begins k (decideLate_slips hk) hx, keeps.trans (frameBegun_keeps z ch _),
      frameBegun_events hfirst, hchan, fun hs => ?_⟩
    exact frameBegun_waits (by rw [hsync, hs, hlock]; exact fun e => nomatch e)
  case flywheel =>
    have hv : y.decideLate r held y.lastDistance = .begun ⟨.flywheel, 1, held.exact.getD r.syncLength⟩ := by
      rw [decideLate_misses hne hnl, miss_begins hm]
    refine ⟨z.frameBegun ch ⟨.flywheel, 1, held.exact.getD r.syncLength⟩, begins _ hv hx,
      keeps.trans (frameBegun_keeps z ch _), frameBegun_events (fun e => nomatch e),
      frameBegun_moved (fun e => nomatch e) hmoved, fun hs => ?_⟩
    exact frameBegun_waits (by rw [hsync, hs]; exact fun e => nomatch e)
  case missed =>
    obtain ⟨x, hlost⟩ := handed_lost (Keeps.refl _ z) rfl hmoved hf
    exact ⟨x, z.syncLost ch, by rw [concluded, decideLate_misses hne hnl, conclude_miss_lost hsync hm], hlost⟩
  case exhausted =>
    obtain ⟨_, _, _, herrors, hslips⟩ := slips k hk
    have hcount := count_accepted_moved k hmoved
    rw [herrors, hslips] at hcount
    obtain ⟨x, hlost⟩ := handed_lost (count_keeps z ch (Counters.accepted · k)) rfl hcount hf
    exact ⟨x, _, by rw [concluded, decideLate_slips hk, conclude_exhausted _ (by rw [hsync]; exact hx)], hlost⟩

end Sys2Proof.Machine
end

section
/-! PROOFS. Errors that fault the device (R182, R193), and what becomes due once writeback is settled (R60, R133, R192). -/

namespace Sys2Proof.Machine

variable {s t u : State} {ch : Chan}

/-! ## Faulting errors -/

/-- Entry to FAULTED is told of by the state before the failed transaction ended and its bytes were spoiled. -/
theorem State.Faults.ofFailed {w : Transaction} {code : FaultCode} (h : (s.freePort.spoilBytes w).Faults u code) :
    s.Faults u code where
  pending := h.pending
  resetHeld := h.resetHeld
  device := h.device
  faultCode := h.faultCode
  sessionBase := h.sessionBase
  params := h.params
  idlePoll := h.idlePoll
  timebase := h.timebase
  regs := h.regs
  prog := h.prog
  sync := h.sync
  monitor := h.monitor
  capture := h.capture
  wb := h.wb
  stats := h.stats
  events := h.events
  test := h.test
  port := h.port
  timer := h.timer
  flies := h.flies
  waits := h.waits
  still := h.still

theorem enterFaulted_mem (code : FaultCode) (h : s.port.inFlight = none) : (s.enterFaulted code).mem = s.mem := by
  show s.spoilInFlight.mem = s.mem
  rw [spoilInFlight_none h]

/-- R182: the requests whose ERROR faults the device. -/
theorem failed_faults {w : Transaction} {r : Request} {code : FaultCode} (hw : w.request = r)
    (h : (code = .slotAccess ∧ ∃ ch, r = .slotRead ch ∨ r = .generationWrite ch ∨ r = .statusWrite ch ∨ r = .markWrite ch
        ∨ r = .servedWrite ch)
      ∨ (code = .headerAccess ∧ (r = .headerRead ∨ r = .testSample ∨ r = .testStatus ∨ r = .journalMark
        ∨ r = .mirrorWrite))
      ∨ (code = .journalAccess ∧ r = .journalRecord)) : s.failed w = s.enterFaulted code := by
  unfold State.failed
  rw [hw]
  rcases h with ⟨rfl, ch, rfl | rfl | rfl | rfl | rfl⟩ | ⟨rfl, rfl | rfl | rfl | rfl | rfl⟩ | ⟨rfl, rfl⟩ <;> rfl

/-- Settles O26: a faulting error enters FAULTED, and a device at a standstill there stays as it is. -/
theorem faultingErrors : Obligations.FaultingErrors := by
  refine ⟨fun r code w s ha h => ?_, fun c s k => still_exec k c⟩
  have hidle : (s.freePort.spoilBytes w).port.inFlight = none := rfl
  have hf := failed_faults (s := s.freePort.spoilBytes w) ha.request h
  refine ⟨(s.freePort.spoilBytes w).enterFaulted code, ?_, (enterFaulted_leaves _ code hidle).ofFailed, fun a hne => ?_⟩
  · rw [exec_failure, respond_error ha, complete_write_error ha, hf, enterFaulted_settle]
  · rw [enterFaulted_mem code hidle]
    exact spoilBytes_elsewhere s.freePort w a hne

/-! ## Operations on each channel in turn -/

/-- An operation that finds nothing to do on any channel. -/
theorem forChans_same {f : Chan → State → State} (h : ∀ ch, f ch s = s) : s.forChans f = s := by
  unfold State.forChans
  generalize allChans = l
  induction l with
  | nil => rfl
  | cons c l ih => rw [List.foldl_cons, h c, ih]

/-- What each step leaves, the operation on all channels leaves. -/
theorem forChans_view {α : Type} (g : State → α) {f : Chan → State → State} (h : ∀ c u, g (f c u) = g u) (s : State) :
    g (s.forChans f) = g s := by
  unfold State.forChans
  generalize allChans = l
  induction l generalizing s with
  | nil => rfl
  | cons c l ih => rw [List.foldl_cons, ih, h]

/-- Two operations that agree while a condition holds, which each step keeps. -/
theorem foldl_chans_congr {p : State → Prop} {f g : Chan → State → State} (h : ∀ c u, p u → f c u = g c u ∧ p (f c u))
    (l : List Chan) (s : State) (hs : p s) : l.foldl (fun t ch => f ch t) s = l.foldl (fun t ch => g ch t) s := by
  induction l generalizing s with
  | nil => rfl
  | cons c l ih =>
    obtain ⟨he, hp⟩ := h c s hs
    rw [List.foldl_cons, List.foldl_cons, ← he]
    exact ih _ hp

/-! ## Settled writeback -/

/-- R133. -/
theorem settled_iff (s : State) (ch : Chan) : s.settled ch = true ↔ (s.chan ch).capture.queue = []
    ∧ (s.chan ch).wb.placement = .idle ∧ (s.chan ch).wb.spell = none ∧ s.port.outstanding (.recordBurst ch) = false
    ∧ s.port.outstanding (.markWrite ch) = false := by
  unfold State.settled
  simp only [Bool.and_eq_true, List.isEmpty_iff, beq_iff_eq, Option.isNone_iff_eq_none, Bool.not_eq_true', and_assoc]

theorem takeHeld_none (h : (s.chan ch).prog.held = none) : s.takeHeld ch = s := by
  unfold State.takeHeld
  rw [h]

theorem takeHeld_some {p : Program} (h : (s.chan ch).prog.held = some p) :
    s.takeHeld ch = (s.modProg ch fun q => { q with held := none }).apply ch p := by
  unfold State.takeHeld
  rw [h]

/-- R60, R85: no held run start is due on the channel. -/
theorem settleChannel_same (h : s.device = .running → (s.chan ch).prog.runState = .halted
    ∨ (s.chan ch).prog.runState = .failed → (s.chan ch).prog.held = none ∨ s.settled ch = false) :
    s.settleChannel ch = s := by
  unfold State.settleChannel
  dsimp only
  split
  · rename_i hd
    obtain ⟨hdev, hrun, hset⟩ := hd
    exact takeHeld_none ((h hdev hrun).resolve_right (by rw [hset]; exact fun e => nomatch e))
  · rfl

theorem allSettled_iff (s : State) : s.allSettled = true ↔ ∀ ch, s.settled ch = true := by
  unfold State.allSettled
  rw [List.all_eq_true]
  exact ⟨fun h ch => h ch (mem_allChans ch), fun h ch _ => h ch⟩

/-- R192: a drain that is not at its end goes on. -/
theorem drainCheck_same (h : s.device = .draining → ∃ ch, s.settled ch = false) : s.drainCheck = s := by
  refine if_neg fun e => ?_
  obtain ⟨ch, hch⟩ := h e.1
  exact Bool.false_ne_true (hch.symm.trans ((allSettled_iff s).1 e.2 ch))

theorem settle_idle (h : s.device ≠ .running) : s.settle = s.drainCheck := by
  unfold State.settle
  rw [forChans_same fun ch => settleChannel_same fun e => absurd e h]

/-- R60, R85: in RUNNING the held run starts that are due apply, CH0 to CH7 in order. -/
theorem settle_running (h : s.device = .running) : s.settle = s.forChans fun ch t => t.settleChannel ch :=
  drainCheck_same fun e => by rw [(settleAll_keeps s).device, h] at e; cases e

/-! ## The end of a drain -/

theorem stopped_chan (s : State) (ch : Chan) : s.stopped.chan ch
    = { s.chan ch with monitor := { (s.chan ch).monitor with evaluating := false } } := by
  obtain ⟨u, _, hu, hc, _⟩ := forChans_chan ((s.enterState .stopped).raise .drained)
    (fun ch t => t.modMonitor ch fun m => { m with evaluating := false }) (fun c u => modMonitor_keeps u c _) ch
  have hs : u.chan ch = s.chan ch := hu.trans (enterState_chan s .stopped ch)
  unfold State.stopped
  rw [hc, chan_modMonitor, hs]

theorem stopped_events (s : State) : s.stopped.events = (s.enterState .stopped).events := by
  unfold State.stopped
  rw [forChans_view State.events fun c u => modMonitor_events u c _]
  rfl

theorem stopped_port (s : State) : s.stopped.port = (s.enterState .stopped).port := by
  unfold State.stopped
  rw [forChans_view State.port fun c u => modMonitor_port u c _]
  rfl

theorem stopped_reports (s : State) : s.Reports s.stopped [(none, .deviceState .stopped)] :=
  (enterState_reports s (d := .stopped) rfl).copy rfl rfl rfl (stopped_events s)

/-- R191, R192: what the end of a drain leaves as it was. -/
structure State.DrainLeaves (s u : State) : Prop where
  regs : u.regs = { s.regs with irqPend := s.regs.irqPend ||| 0x400 }
  test : u.test = s.test
  mem : u.mem = s.mem
  timebase : u.timebase = s.timebase
  sessionBase : u.sessionBase = s.sessionBase
  params : u.params = s.params
  idlePoll : u.idlePoll = s.idlePoll
  faultCode : u.faultCode = s.faultCode
  frozen : u.frozen = s.frozen

theorem stopped_leaves (s : State) : s.DrainLeaves s.stopped := by
  have h := stopped_keeps s
  have k := enterState_keeps s .stopped
  exact ⟨h.regs.trans (congrArg (fun r : Registers => { r with irqPend := r.irqPend ||| 0x400 }) k.regs),
    h.test.trans k.test, h.mem.trans k.mem, h.timebase.trans k.timebase, h.sessionBase.trans k.sessionBase,
    h.params.trans k.params, h.idlePoll.trans k.idlePoll, h.faultCode.trans k.faultCode, h.frozen.trans k.frozen⟩

/-- R186, R187: what the entry to STARTING leaves and sets. -/
theorem enterStarting_leaves (s : State) : s.enterStarting.device = .starting ∧ s.enterStarting.regs = s.regs
    ∧ s.enterStarting.sessionBase = s.regs.cpbase ∧ (∀ ch, s.enterStarting.chan ch = .reset)
    ∧ s.enterStarting.events = .reset ∧ s.enterStarting.test = .reset ∧ s.enterStarting.idlePoll = none
    ∧ s.enterStarting.faultCode = .none ∧ s.enterStarting.frozen = .none
    ∧ s.enterStarting.port.waiting .headerRead = true ∧ s.enterStarting.mem = s.mem
    ∧ s.enterStarting.timebase = s.timebase :=
  ⟨rfl, rfl, rfl, fun ch => PerChannel.get_all _ ch, rfl, rfl, rfl, rfl, rfl, request_waits _ _, rfl, rfl⟩

/-- R192: every channel is settled, so the drain ends. -/
theorem drainCheck_ends (hd : s.device = .draining) (h : ∀ ch, s.settled ch = true) : s.drainCheck = s.enterStopped :=
  if_pos ⟨hd, (allSettled_iff s).2 h⟩

theorem exec_drainEnd_due (h : s.resetHeld = false) (hd : s.device = .draining) (hset : ∀ ch, s.settled ch = true) :
    exec .drainEnd s = .next s.enterStopped.arbitrate := by
  rw [exec_drainEnd, live_next _ h, if_pos ⟨hd, (allSettled_iff s).2 hset⟩]

/-- Settles O27: settled writeback, the run starts it lets begin, and the end of a drain. -/
theorem writebackSettled : Obligations.WritebackSettled := by
  intro s
  refine ⟨settled_iff s, ?nothing, ?running, ?draining, ?command, fun h _ hd hset => ?ended⟩
  case nothing =>
    intro hrun hdrain
    unfold State.settle
    rw [forChans_same fun ch => settleChannel_same fun hd => hrun hd ch, drainCheck_same hdrain]
  case running =>
    intro hd
    rw [settle_running hd]
    refine foldl_chans_congr (p := fun u => u.device = .running) (fun c u hu => ?_) allChans s hd
    have hstep : u.settleChannel c = match (u.chan c).prog.held with
        | none => u
        | some p =>
          if ((u.chan c).prog.runState = .halted ∨ (u.chan c).prog.runState = .failed) ∧ u.settled c = true then
            (u.modProg c fun q => { q with held := none }).apply c p
          else u := by
      unfold State.settleChannel
      simp only [hu, true_and]
      cases hh : (u.chan c).prog.held with
      | none => rw [takeHeld_none hh, ite_self]
      | some p => rw [takeHeld_some hh]
    exact ⟨hstep, (settleChannel_keeps u c).device.trans hu⟩
  case draining => exact fun hd => (settle_idle (by rw [hd]; exact fun e => nomatch e)).symm
  case command =>
    intro ch p h hd hr hp hset
    have hdue : s.heldRunDue ch = true := by
      unfold State.heldRunDue
      dsimp only
      rw [hd, hp, hset]
      rcases hr with hr | hr <;> rw [hr] <;> rfl
    rw [exec_writebackSettled, live_next _ h, if_pos hdue, takeHeld_some hp]
  case ended =>
    have hsettle : s.settle = s.enterStopped := by
      rw [settle_idle (by rw [hd]; exact fun e => nomatch e), drainCheck_ends hd hset]
    have hexec := exec_drainEnd_due h hd hset
    have leaves := stopped_leaves s
    refine ⟨fun hr => ?stops, fun hr => ?starts⟩
    case stops =>
      have hu : s.enterStopped = s.stopped := by rw [enterStopped_eq, if_neg (by rw [hr]; exact Bool.false_ne_true)]
      rw [hu] at hsettle hexec
      refine ⟨s.stopped, hexec, hsettle.symm, (stopped_keeps s).device.trans (enterState_device s .stopped), leaves.regs,
        stopped_reports s, ?_, stopped_chan s, leaves.test, leaves.mem, leaves.timebase, leaves.sessionBase, leaves.params,
        leaves.idlePoll, leaves.faultCode, leaves.frozen⟩
      rw [stopped_port]
      exact enterState_mirror s .stopped
    case starts =>
      have hu : s.enterStopped = s.stopped.enterStarting := by rw [enterStopped_eq, if_pos hr]
      rw [hu] at hsettle hexec
      obtain ⟨hdevice, hregs, hbase, hchans, hevents, htest, hpoll, hcode, hfrozen, hheader, hmem, htime⟩ :=
        enterStarting_leaves s.stopped
      rw [leaves.regs] at hregs hbase
      exact ⟨s.stopped.enterStarting, hexec, hsettle.symm, hdevice, hregs, hbase, hchans, hevents, htest, hpoll, hcode,
        hfrozen, hheader, hmem.trans leaves.mem, htime.trans leaves.timebase⟩

end Sys2Proof.Machine
end

section
/-! PROOFS. The header read (R187 to R189): what makes a header valid, the entry to RUNNING, and the order in which the reads of
that entry wait for the port. -/

namespace Sys2Proof.Machine

variable {s t u : State} {ch : Chan} {reads : List Request}

/-! ## A valid header -/

theorem powerOfTwoIn_iff (low high size : Nat) :
    powerOfTwoIn low high size = true ↔ ∃ k, low ≤ k ∧ k ≤ high ∧ size = 2 ^ k := by
  unfold powerOfTwoIn
  simp only [List.any_eq_true, List.mem_range, beq_iff_eq]
  constructor
  · rintro ⟨k, hk, he⟩
    exact ⟨low + k, Nat.le_add_right .., by omega, he⟩
  · rintro ⟨k, hl, hh, he⟩
    exact ⟨k - low, by omega, by rw [Nat.add_sub_cancel' hl]; exact he⟩

theorem addressUsable_iff (address : Dword) (align : Nat) :
    addressUsable address align = true ↔ address.toNat < 2 ^ 48 ∧ address.toNat % align = 0 := by
  unfold addressUsable
  rw [Bool.and_eq_true, decide_eq_true_eq, beq_iff_eq]

/-- R188. -/
theorem header_valid_iff (h : Header) : h.valid = true ↔ h.pageVersion = 1
    ∧ 1 ≤ h.params.idlePollMs.toNat ∧ h.params.idlePollMs.toNat ≤ 255
    ∧ 1 ≤ h.params.journalThreshold.toNat ∧ h.params.journalThreshold.toNat ≤ 255 ∧ h.params.holdoffUs.toNat ≤ 65535
    ∧ h.params.journalBase.toNat < 2 ^ 48 ∧ h.params.journalBase.toNat % 4096 = 0
    ∧ ∃ k, 12 ≤ k ∧ k ≤ 20 ∧ h.params.journalSize.toNat = 2 ^ k := by
  unfold Header.valid
  simp only [Bool.and_eq_true, beq_iff_eq, decide_eq_true_eq, addressUsable_iff, powerOfTwoIn_iff, and_assoc]

/-! ## Events handed over leave the marks -/

/-- The marks of the Event Unit. -/
def EventUnit.marks (e : EventUnit) : Word × Word × Word × Word := (e.writeMark, e.acceptedRelease, e.published, e.noticed)

theorem marks_eq_iff {e : EventUnit} {a b c d : Word} : e.marks = (a, b, c, d)
    ↔ e.writeMark = a ∧ e.acceptedRelease = b ∧ e.published = c ∧ e.noticed = d := by
  simp only [EventUnit.marks, Prod.mk.injEq]

theorem journalNext_marks (s : State) : s.journalNext.events.marks = s.events.marks := by
  unfold State.journalNext
  split
  · split
    · unfold State.journalWrite
      split <;> rfl
    · rw [requestRead_events]; rfl
  · rfl

theorem enqueue_marks (s : State) (e : Event) : (s.enqueue e).events.marks = s.events.marks := by
  unfold State.enqueue
  split <;> rfl

theorem hand_marks (s : State) (c : Option Chan) (b : EventBody) : (s.hand c b).events.marks = s.events.marks := by
  unfold State.hand
  split
  · rw [journalNext_marks, journalNudged_events, enqueue_marks]
  · rfl

/-! ## The reads that wait, in their order -/

/-- At an idle port with an empty class B these reads have been made, in this order. -/
structure Port.Reading (p : Port) (reads : List Request) : Prop where
  idle : p.inFlight = none
  empty : p.classB = []
  sorted : p.Sorted
  made : (p.arrivals.map (·.request)).filter (fun r => r.classOf == .b) = reads

theorem Port.Reading.congr (h : s.port.Reading reads) (hp : t.port = s.port) : t.port.Reading reads := by rwa [hp]

theorem Port.Reading.outstanding {p : Port} (h : p.Reading reads) {r : Request} (hr : r.classOf = .b) (hn : r ∉ reads) :
    p.outstanding r = false := by
  have hqueued : p.queued r = false := by
    have ha : p.classA.contains r = false :=
      Bool.eq_false_iff.2 fun e => by
        have := h.sorted.1 r (List.contains_iff_mem.1 e)
        rw [hr] at this; cases this
    unfold Port.queued
    split
    · cases hr
    · rw [ha, h.empty]; rfl
  have harrived : (p.arrivals.any fun t => t.request == r) = false := by
    refine Bool.eq_false_iff.2 fun e => hn ?_
    obtain ⟨x, hx, hxr⟩ := List.any_eq_true.1 e
    rw [← h.made, List.mem_filter, List.mem_map]
    exact ⟨⟨x, hx, beq_iff_eq.1 hxr⟩, by rw [hr]; rfl⟩
  have hflying : p.flying r = false := by unfold Port.flying; rw [h.idle]; rfl
  rw [outstanding_split, hqueued, harrived, hflying]
  rfl

theorem Port.Reading.arrivals (h : s.port.Reading reads) (r : Request) :
    ((s.request r).port.arrivals.map (·.request)).filter (fun r => r.classOf == .b)
      = reads ++ [r].filter (fun r => r.classOf == .b) := by
  have ha : (s.request r).port.arrivals = s.port.arrivals ++ [s.transaction r] := rfl
  rw [ha, List.map_append, List.filter_append, h.made, List.map_singleton, transaction_request]

/-- A write requested adds no read. -/
theorem Port.Reading.write (h : s.port.Reading reads) {r : Request} (hr : r.classOf = .a) :
    (s.request r).port.Reading reads :=
  ⟨h.idle, h.empty, h.sorted, by
    rw [h.arrivals, List.filter_cons_of_neg (by rw [hr]; exact fun e => nomatch e), List.filter_nil, List.append_nil]⟩

/-- A read that is not outstanding is requested after the others. -/
theorem Port.Reading.read (h : s.port.Reading reads) {r : Request} (hr : r.classOf = .b) (hn : r ∉ reads) :
    (s.requestRead r).port.Reading (reads ++ [r]) := by
  have he : s.requestRead r = s.request r := if_neg (Bool.eq_false_iff.1 (h.outstanding hr hn))
  rw [he]
  exact ⟨h.idle, h.empty, h.sorted, by rw [h.arrivals, List.filter_cons_of_pos (by rw [hr]; rfl), List.filter_nil]⟩

/-- The slots of these channels sampled in turn. -/
theorem Port.Reading.slots (chs : List Chan) (h : s.port.Reading reads)
    (hn : (reads ++ chs.map Request.slotRead).Nodup) :
    (chs.foldl (fun t ch => t.sampleSlot ch) s).port.Reading (reads ++ chs.map Request.slotRead) := by
  induction chs generalizing s reads with
  | nil => rwa [List.map_nil, List.append_nil]
  | cons c chs ih =>
    rw [List.map_cons, List.append_cons] at hn ⊢
    have hc : Request.slotRead c ∉ reads := fun hm =>
      (List.nodup_append.1 (List.nodup_append.1 hn).1).2.2 _ hm _ (List.mem_singleton.2 rfl) rfl
    exact ih (h.read rfl hc) hn

/-- R143: an event handed over, where a placement that begins finds room, requests no read. -/
theorem Port.Reading.hand (h : s.port.Reading reads) (c : Option Chan) (b : EventBody)
    (hp : s.events.placement = .idle) (room : 32 ≤ s.journalRoom) : (s.hand c b).port.Reading reads := by
  unfold State.hand
  split
  · let v := s.enqueue ⟨c, b, s.timebase⟩
    have hv : v.port.Reading reads ∧ v.events.placement = .idle ∧ v.journalRoom = s.journalRoom := by
      show (State.enqueue s _).port.Reading reads ∧ (State.enqueue s _).events.placement = .idle
        ∧ (State.enqueue s _).journalRoom = s.journalRoom
      unfold State.enqueue
      split
      · exact ⟨h, hp, rfl⟩
      · exact ⟨Port.Reading.write (s := s.modEvents _) h rfl, hp, rfl⟩
    obtain ⟨hread, hidle, hroom⟩ := hv
    show (State.journalNext (State.journalNudged v)).port.Reading reads
    rw [journalNudged_open (by rw [hidle]; exact fun e => nomatch e)]
    unfold State.journalNext
    split
    · rw [if_pos (by rw [hroom]; exact room)]
      unfold State.journalWrite
      split
      · exact hread
      · exact Port.Reading.write (s := v.modEvents _) hread rfl
    · exact hread
  · exact h

/-! ## Arrivals keep the order -/

theorem classB_contains (q : Port) (h : q.Sorted) {r : Request} (hr : r.classOf = .b) :
    q.queued r = q.classB.contains r := by
  have ha : q.classA.contains r = false :=
    Bool.eq_false_iff.2 fun e => by
      have := h.1 r (List.contains_iff_mem.1 e)
      rw [hr] at this; cases this
  unfold Port.queued
  split
  · cases hr
  · rw [ha, Bool.false_or]

/-- R176: reads that arrive, none of them twice, join class B in their order. -/
theorem foldl_enlist_reads (l : List Transaction) (q : Port) (h : q.Sorted)
    (hn : (q.classB ++ (l.map (·.request)).filter (fun r => r.classOf == .b)).Nodup) :
    (l.foldl (fun q t => q.enlist t.request) q).classB
      = q.classB ++ (l.map (·.request)).filter (fun r => r.classOf == .b) := by
  induction l generalizing q with
  | nil => exact (List.append_nil _).symm
  | cons t l ih =>
    rw [List.foldl_cons]
    cases hc : t.request.classOf == .b with
    | false =>
      have he : (q.enlist t.request).classB = q.classB := by
        rw [enlist_classB, if_neg fun e => by rw [e.1] at hc; cases hc]
      rw [List.map_cons, List.filter_cons_of_neg (by rw [hc]; exact Bool.false_ne_true)] at hn ⊢
      rw [ih _ (enlist_sorted q _ h) (by rw [he]; exact hn), he]
    | true =>
      rw [List.map_cons, List.filter_cons_of_pos (by rw [hc]), List.append_cons] at hn ⊢
      have hnew : t.request ∉ q.classB := fun hm =>
        (List.nodup_append.1 (List.nodup_append.1 hn).1).2.2 _ hm _ (List.mem_singleton.2 rfl) rfl
      have he : (q.enlist t.request).classB = q.classB ++ [t.request] := by
        rw [enlist_classB, if_pos ⟨beq_iff_eq.1 hc, by
          rw [classB_contains q h (beq_iff_eq.1 hc)]
          exact Bool.eq_false_iff.2 fun e => hnew (List.contains_iff_mem.1 e)⟩]
      rw [ih _ (enlist_sorted q _ h) (by rw [he]; exact hn), he]

theorem foldl_enlist_queued (l : List Transaction) (q : Port) (x : Request) :
    (l.foldl (fun q t => q.enlist t.request) q).queued x = (q.queued x || l.any fun t => t.request == x) := by
  induction l generalizing q with
  | nil => rw [List.foldl_nil, List.any_nil, Bool.or_false]
  | cons t l ih =>
    have hc : (x == t.request) = (t.request == x) := by
      rw [Bool.eq_iff_iff]; simp only [beq_iff_eq]; exact eq_comm
    rw [List.foldl_cons, ih, enlist_queued, List.any_cons, Bool.or_assoc, hc]

theorem recordBurst_of_classC {r : Request} (h : r.classOf = .c) : ∃ ch, r = .recordBurst ch := by
  cases r with
  | recordBurst ch => exact ⟨ch, rfl⟩
  | _ => cases h

theorem depart_classB {r : Request} (p : Port) (h : r.classOf ≠ .b) : (p.depart r).classB = p.classB := by
  cases hr : r.classOf with
  | a => rw [depart_of_classA p hr]
  | b => exact absurd hr h
  | c => obtain ⟨ch, rfl⟩ := recordBurst_of_classC hr; rfl

/-- R177: while a class A request waits, none of class B is chosen. -/
theorem choice_not_classB {p : Port} (h : p.Sorted) (ha : p.classA ≠ []) {r : Request} (hr : p.choice = some r) :
    r.classOf ≠ .b := by
  obtain ⟨q, rest, hq⟩ := List.exists_cons_of_ne_nil ha
  unfold Port.choice at hr
  dsimp only at hr
  rw [hq] at hr
  split at hr
  · obtain ⟨c, _, rfl⟩ := Option.map_eq_some_iff.1 hr
    exact fun e => nomatch e
  · rw [← Option.some.inj hr, h.1 q (by rw [hq]; exact List.mem_cons_self)]
    exact fun e => nomatch e

theorem grant_keeps_classB (h : s.port.Sorted) (ha : s.port.classA ≠ []) : s.grant.port.classB = s.port.classB := by
  unfold State.grant State.grantAs
  split
  · rename_i r _ hr
    exact depart_classB s.port (choice_not_classB h ha hr)
  · rfl

/-- R176, R177: reads made at a completion wait in their order, where a write is made as well. -/
theorem regrant_reads {w : Request} (h : s.port.Reading reads) (hn : reads.Nodup) (hw : w.classOf = .a)
    (hm : s.port.waiting w = true) (k : RequestsAppended s t) : ∃ later, t.regrant.port.classB = reads ++ later := by
  obtain ⟨l, hl⟩ := k
  let q : Port := { s.port with arrivals := [] }
  let q1 := s.port.arrivals.foldl (fun q t => q.enlist t.request) q
  let q2 := l.foldl (fun q t => q.enlist t.request) q1
  have hq2 : t.port.enlistArrivals = q2 := by
    unfold Port.enlistArrivals
    rw [hl, List.foldl_append]
  have hq1 : q1.classB = reads := by
    have := foldl_enlist_reads s.port.arrivals q h.sorted (by rw [show q.classB = [] from h.empty, h.made]; exact hn)
    rw [show q.classB = [] from h.empty, h.made] at this
    exact this
  have hsorted : q2.Sorted := foldl_enlist_sorted l q1 (foldl_enlist_sorted s.port.arrivals q h.sorted)
  have hwait : q2.queued w = true := by
    rw [foldl_enlist_queued, foldl_enlist_queued]
    have : (q.queued w || s.port.arrivals.any fun t => t.request == w) = true := hm
    rw [this, Bool.true_or]
  have hclassA : q2.classA ≠ [] := fun e => by
    have hb : q2.classB.contains w = false := Bool.eq_false_iff.2 fun e => by
      have := hsorted.2 w (List.contains_iff_mem.1 e)
      rw [hw] at this; cases this
    unfold Port.queued at hwait
    split at hwait
    · cases hw
    · rw [e, hb] at hwait; cases hwait
  obtain ⟨later, hlater⟩ := foldl_enlist_classB l q1
  refine ⟨later, ?_⟩
  unfold State.regrant
  rw [hq2, grant_keeps_classB (s := { t with port := q2 }) hsorted hclassA]
  exact hlater.trans (by rw [hq1])

end Sys2Proof.Machine
end

section
/-! PROOFS. The entry to RUNNING (R34, R135, R189), and the outcomes of the header read (R188). -/

namespace Sys2Proof.Machine

variable {s t u : State} {ch : Chan} {bytes : List Byte} {w : Transaction}

/-! ## The entry to RUNNING, stage by stage -/

/-- R34: the state at entry to RUNNING once the monitors evaluate, before the reads are requested. -/
def State.begun (s : State) : State :=
  ((s.enterState .running).request .journalMark).forChans fun ch t => t.modMonitor ch fun _ => .begin

/-- R189: the slots sampled at entry to RUNNING. -/
def State.sampled (s : State) : State := s.begun.forChans fun ch t => t.sampleSlot ch

theorem enterRunning_eq (s : State) : s.enterRunning = s.sampled.sampleTest := rfl

theorem begun_keeps (s : State) : Keeps (fun _ => False) ((s.enterState .running).request .journalMark) s.begun :=
  beginAll_keeps _

theorem sampled_keeps (s : State) : KeepsChans s.begun s.sampled := sampleAll_keeps s.begun

theorem begun_chan (s : State) (ch : Chan) : s.begun.chan ch = { s.chan ch with monitor := .begin } := by
  obtain ⟨u, _, hu, hc, _⟩ := forChans_chan ((s.enterState .running).request .journalMark)
    (fun ch t => t.modMonitor ch fun _ => .begin) (fun c u => modMonitor_keeps u c _) ch
  unfold State.begun
  rw [hc, chan_modMonitor, hu, request_chan, enterState_chan]

theorem begun_events (s : State) : s.begun.events = (s.enterState .running).events := by
  unfold State.begun
  rw [forChans_view State.events fun c u => modMonitor_events u c _]
  rfl

theorem begun_port (s : State) : s.begun.port = ((s.enterState .running).request .journalMark).port := by
  unfold State.begun
  rw [forChans_view State.port fun c u => modMonitor_port u c _]

theorem sampled_events (s : State) : s.sampled.events = s.begun.events :=
  forChans_view State.events (fun c u => requestRead_events u (.slotRead c)) s.begun

theorem enterRunning_chan (s : State) (ch : Chan) : s.enterRunning.chan ch = { s.chan ch with monitor := .begin } := by
  rw [enterRunning_eq]
  exact (requestRead_chan s.sampled .testSample ch).trans (((sampled_keeps s).chan ch).trans (begun_chan s ch))

theorem enterRunning_events (s : State) : s.enterRunning.events = (s.enterState .running).events := by
  rw [enterRunning_eq]
  exact (requestRead_events s.sampled .testSample).trans ((sampled_events s).trans (begun_events s))

theorem enterRunning_marks (s : State) : s.enterRunning.events.marks = s.events.marks := by
  rw [enterRunning_events]
  exact hand_marks { s with device := .running } none (.deviceState .running)

/-- R189, R194: the writes requested at entry to RUNNING. -/
theorem enterRunning_writes (s : State) : s.enterRunning.port.waiting .mirrorWrite = true
    ∧ s.enterRunning.port.waiting .journalMark = true := by
  have hmark : s.begun.port.waiting .journalMark = true := by rw [begun_port]; exact request_waits _ _
  have hmirror : s.begun.port.waiting .mirrorWrite = true := by
    rw [begun_port]
    exact (request_keeps (s.enterState .running) .journalMark).waiting _ (enterState_mirror s .running)
  have keeps : KeepsChans s.begun s.enterRunning := by
    rw [enterRunning_eq]
    exact (sampled_keeps s).trans (requestRead_keeps s.sampled .testSample)
  exact ⟨keeps.waiting _ hmirror, keeps.waiting _ hmark⟩

/-- The reads that entry to RUNNING requests: the slots from CH0 to CH7, and then the test sample. -/
def runningReads : List Request := allChans.map Request.slotRead ++ [.testSample]

theorem runningReads_nodup : runningReads.Nodup := by decide

/-- R189: at an idle port with no class B request, the reads of the entry are requested in their order. -/
theorem enterRunning_reading (h : s.port.Reading []) (hp : s.events.placement = .idle)
    (room : 32 ≤ s.journalRoom) : s.enterRunning.port.Reading runningReads := by
  have h0 : ({ s with device := .running } : State).port.Reading [] := h
  have h1 := (h0.hand none (.deviceState .running) hp room).write (r := .mirrorWrite) rfl
  have h2 : s.begun.port.Reading [] := by
    rw [begun_port]
    exact h1.write (r := .journalMark) rfl
  have h3 : s.sampled.port.Reading (allChans.map Request.slotRead) := h2.slots allChans (by decide)
  rw [enterRunning_eq]
  exact h3.read rfl (by decide)

theorem waiting_of_outstanding {p : Port} {r : Request} (h : p.inFlight = none) (ho : p.outstanding r = true) :
    p.waiting r = true := by
  unfold Port.outstanding Port.flying at ho
  rw [h, Bool.or_eq_true] at ho
  exact ho.resolve_right fun e => nomatch e

/-- R189: the reads requested at entry to RUNNING, whatever waits already. -/
theorem enterRunning_reads (h : s.port.inFlight = none) :
    (∀ ch, s.enterRunning.port.waiting (.slotRead ch) = true) ∧ s.enterRunning.port.waiting .testSample = true := by
  have hidle : ∀ {v : State} {p : Chan → Prop}, Keeps p s.begun v → v.port.inFlight = none := fun k => by
    rw [k.inFlight, begun_port]
    exact (announce_keeps { s with device := .running }).inFlight.trans h
  have hsampled : KeepsChans s.begun s.sampled := sampled_keeps s
  have htest := requestRead_keeps s.sampled .testSample
  refine ⟨fun ch => ?slot, ?test⟩
  case slot =>
    have hreads := makesReads_slots s.begun (fun _ => true) (fun ch t => t.sampleSlot ch) fun _ _ _ => rfl
    have ho : s.sampled.port.outstanding (.slotRead ch) = true := by
      rw [show s.sampled.port.outstanding (.slotRead ch) = _ from hreads.outstanding (.slotRead ch), any_slotRead,
        Bool.or_true]
    rw [enterRunning_eq]
    exact htest.waiting _ (waiting_of_outstanding (hidle hsampled) ho)
  case test =>
    rw [enterRunning_eq]
    exact waiting_of_outstanding (hidle (hsampled.trans htest)) (requestRead_outstanding s.sampled .testSample)

/-! ## The header read -/

/-- R188: the state in which a valid header puts the device, before it looks at CTRL.RUN. -/
def State.sessionStarted (s : State) (h : Header) : State := (s.startSession h).enterRunning.startPoll

theorem headerDone_valid (hd : s.device = .starting) (hv : (Header.parse bytes).valid = true) :
    s.headerDone bytes = (s.sessionStarted (Header.parse bytes)).followRun := (if_pos hd).trans (if_pos hv)

theorem headerDone_invalid (hd : s.device = .starting) (hv : ¬(Header.parse bytes).valid = true) :
    s.headerDone bytes = s.enterFaulted .badHeader := (if_pos hd).trans (if_neg hv)

theorem headerRead_completes (ha : s.Answering .headerRead w) (k : s.Inv) (hb : bytes.length = w.length) :
    exec (.headerReadComplete (.okay bytes)) s = .next ((s.freePort.headerDone bytes).settle).regrant := by
  have hs : s.freePort.succeeded w bytes = s.freePort.headerDone bytes := by
    unfold State.succeeded
    rw [ha.request]
  have hr := respond_read ha hb
  rw [complete_read ha k.reads rfl, hs] at hr
  exact hr

theorem Keeps.startPoll {p : Chan → Prop} (h : Keeps p s t) : Keeps p { s with idlePoll := some 0 } t.startPoll :=
  { h with idlePoll := rfl }

theorem startPoll_events (s : State) : s.startPoll.events = s.events := rfl

theorem startPoll_port (s : State) : s.startPoll.port = s.port := rfl

theorem startPoll_chan (s : State) (ch : Chan) : s.startPoll.chan ch = s.chan ch := rfl

theorem sessionStarted_keeps (s : State) (h : Header) : Keeps (fun _ => False)
    { s.startSession h with device := .running, idlePoll := some 0 } (s.sessionStarted h) :=
  (((enterState_keeps (s.startSession h) .running).but (p := fun _ => False)).trans
    (enterRunning_keeps (s.startSession h))).startPoll

theorem sessionStarted_chan (s : State) (h : Header) (ch : Chan) :
    (s.sessionStarted h).chan ch = { s.chan ch with monitor := .begin } := by
  unfold State.sessionStarted
  rw [startPoll_chan, enterRunning_chan]
  rfl

/-- R135: the marks at the start of a session. -/
theorem sessionStarted_marks (s : State) (h : Header) :
    (s.sessionStarted h).events.marks = (h.journalRelease, h.journalRelease, h.journalRelease, h.journalRelease) := by
  unfold State.sessionStarted
  rw [startPoll_events, enterRunning_marks]
  rfl

theorem sessionStarted_queue (s : State) (h : Header) (room : s.events.queue.length < 16) :
    (s.sessionStarted h).events.queue = s.events.queue ++ [⟨none, .deviceState .running, s.timebase⟩] := by
  unfold State.sessionStarted
  rw [startPoll_events, enterRunning_events, enterState_queue (s.startSession h) rfl room]
  rfl

theorem sessionStarted_writes (s : State) (h : Header) : (s.sessionStarted h).port.waiting .mirrorWrite = true
    ∧ (s.sessionStarted h).port.waiting .journalMark = true := by
  unfold State.sessionStarted
  rw [startPoll_port]
  exact enterRunning_writes _

theorem sessionStarted_reads (s : State) (h : Header) (hidle : s.port.inFlight = none) :
    (∀ ch, (s.sessionStarted h).port.waiting (.slotRead ch) = true)
      ∧ (s.sessionStarted h).port.waiting .testSample = true := by
  unfold State.sessionStarted
  rw [startPoll_port]
  exact enterRunning_reads hidle

theorem sessionStarted_reading {h : Header} (hr : s.port.Reading []) (hp : s.events.placement = .idle)
    (room : 32 ≤ (s.startSession h).journalRoom) : (s.sessionStarted h).port.Reading runningReads := by
  unfold State.sessionStarted
  rw [startPoll_port]
  exact enterRunning_reading hr hp room

theorem followRun_running (hd : s.device = .running) (hr : s.regs.run = true) : s.followRun = s :=
  followRun_of_followed (by unfold State.Followed; rw [hd]; exact hr)

theorem setCtrl_same {run irqen : Bool} (hr : s.regs.run = run) (hi : s.regs.irqen = irqen) : s.setCtrl run irqen = s := by
  subst hr hi
  rfl

theorem exec_ctrlRun_same (h : s.resetHeld = false) {run : Bool} (hr : s.regs.run = run) :
    exec (.ctrlRun run) s = .next s.followRun.arbitrate := by
  rw [exec_ctrlRun, live_next _ h]
  unfold State.writeCtrl
  rw [setCtrl_same hr rfl]

theorem journalRoom_startSession (s : State) (h : Header) :
    (s.startSession h).journalRoom = h.params.journalSize.toNat := by
  have hf : fillOf h.journalRelease h.journalRelease = 0 := by
    unfold fillOf
    rw [BitVec.sub_self]
    rfl
  show roomOf h.params.journalSize.toNat h.journalRelease h.journalRelease = _
  unfold roomOf
  rw [hf, Nat.sub_zero]

/-- Settles O25: the header judged, the entry to RUNNING, and the fault that a header which is not valid brings. -/
theorem headerRead : Obligations.HeaderRead := by
  intro bytes w s k ha hd hb p release valid
  have hvalid : (Header.parse bytes).valid = true ↔ valid := header_valid_iff (Header.parse bytes)
  have hexec := headerRead_completes ha k hb
  have started : valid → exec (.headerReadComplete (.okay bytes)) s
      = .next (s.freePort.sessionStarted (Header.parse bytes)).followRun.settle.regrant := fun hv => by
    rw [hexec, headerDone_valid (s := s.freePort) hd (hvalid.2 hv)]
  have keeps := sessionStarted_keeps s.freePort (Header.parse bytes)
  have hmarks := sessionStarted_marks s.freePort (Header.parse bytes)
  have hqueue := sessionStarted_queue s.freePort (Header.parse bytes)
  have hchan := sessionStarted_chan s.freePort (Header.parse bytes)
  obtain ⟨hmirror, hmark⟩ := sessionStarted_writes s.freePort (Header.parse bytes)
  obtain ⟨hslots, htest⟩ := sessionStarted_reads s.freePort (Header.parse bytes) rfl
  have hreading := sessionStarted_reading (s := s.freePort) (h := Header.parse bytes)
  generalize s.freePort.sessionStarted (Header.parse bytes) = u at *
  refine ⟨rfl, fun hv => ?running, fun hv hempty hplace => ?order, fun hv => ?faulted⟩
  case running =>
    obtain ⟨hwrite, haccepted, hpublished, hnoticed⟩ := marks_eq_iff.1 hmarks
    exact ⟨u, started hv, keeps.device, keeps.faultCode, keeps.frozen, keeps.sessionBase, keeps.params,
      fun hr => followRun_running keeps.device (by rw [keeps.regs]; exact hr),
      fun hr => exec_ctrlRun_same (by rw [keeps.resetHeld]; exact ha.live) (by rw [keeps.regs]; exact hr), keeps.idlePoll,
      keeps.timebase, keeps.regs, keeps.test, keeps.mem, hwrite, haccepted, hpublished, hnoticed, hqueue, hchan, hmirror,
      hmark, hslots, htest⟩
  case order =>
    have hroom : 32 ≤ (s.freePort.startSession (Header.parse bytes)).journalRoom := by
      obtain ⟨_, _, _, _, _, _, _, _, n, hlow, _, hsize⟩ := hv
      rw [journalRoom_startSession, show (Header.parse bytes).params.journalSize.toNat = 2 ^ n from hsize]
      exact Nat.le_trans (by decide) (Nat.pow_le_pow_right (by decide) hlow)
    have hidle : s.freePort.port.Reading [] :=
      ⟨rfl, hempty, k.sorted, by rw [show s.freePort.port.arrivals = [] from k.arrived]; rfl⟩
    obtain ⟨hfollow, hrun⟩ := followRun_requests u keeps.device
    obtain ⟨later, hlater⟩ := regrant_reads (w := .mirrorWrite) (hreading hidle hplace hroom) runningReads_nodup rfl hmirror
      (hfollow.trans (settle_requests u.followRun hrun))
    refine ⟨u.followRun.settle.regrant, later, started hv, ?_⟩
    rw [hlater, runningReads, List.append_assoc]
    rfl
  case faulted =>
    have hnothing : s.freePort.spoilBytes w = s.freePort :=
      spoilBytes_nothing (k.reads w ha.flying (by rw [ha.request]; rfl))
    have hfaults := enterFaulted_leaves (s.freePort.spoilBytes w) .badHeader rfl
    have hmem := enterFaulted_mem (s := s.freePort.spoilBytes w) .badHeader rfl
    refine ⟨(s.freePort.spoilBytes w).enterFaulted .badHeader, ?_, hfaults.ofFailed, ?_⟩
    · rw [hexec, headerDone_invalid (s := s.freePort) hd fun e => hv (hvalid.1 e), enterFaulted_settle, hnothing]
    · rw [hmem, hnothing]; rfl

end Sys2Proof.Machine
end

section
/-! PROOFS. A tick (R200): what is counted, which timers have reached their value, and the expiry of the one that has. -/

namespace Sys2Proof.Machine

variable {s t u : State} {ch : Chan}

/-! ## What a tick counts -/

/-- R200: the timebase rises by one, up to its greatest value. -/
theorem saturate_timebase (x : Dword) : saturate x 1 = if x = 0xFFFFFFFFFFFFFFFF then x else x + 1 := by
  have hx := x.isLt
  apply BitVec.eq_of_toNat_eq
  unfold saturate
  split
  · rename_i h
    subst h
    decide
  · rename_i h
    have hne : x.toNat ≠ 2 ^ 64 - 1 := fun e => h (BitVec.eq_of_toNat_eq e)
    rw [BitVec.toNat_ofNat, BitVec.toNat_add, Nat.min_eq_left (by omega)]
    rfl

theorem countTick_eq (s : State) : s.countTick = { s with
    timebase := if s.timebase = 0xFFFFFFFFFFFFFFFF then s.timebase else s.timebase + 1
    chans := s.chans.map fun c =>
      { c with
        monitor := { c.monitor with gap := if c.monitor.evaluating then c.monitor.gap.map (· + 1) else c.monitor.gap }
        wb := { c.wb with holdoff := c.wb.holdoff.map (· + 1) } }
    events := { s.events with holdoff := s.events.holdoff.map (· + 1) }
    idlePoll := s.idlePoll.map (· + 1)
    port := { s.port with timer := s.port.timer.map (· + 1) } } := by
  have htick : Channel.tick = fun c => { c with
      monitor := { c.monitor with gap := if c.monitor.evaluating then c.monitor.gap.map (· + 1) else c.monitor.gap }
      wb := { c.wb with holdoff := c.wb.holdoff.map (· + 1) } } := by
    funext c
    unfold Channel.tick Monitor.tick
    split <;> rfl
  unfold State.countTick
  rw [saturate_timebase, htick]

theorem countTick_chan (s : State) (ch : Chan) : s.countTick.chan ch = (s.chan ch).tick := PerChannel.get_map ..

/-- A tick counted leaves the port granted, with nothing arriving. -/
theorem State.Inv.countTick (k : s.Inv) : s.countTick.Inv :=
  { countTick_sound k.toSound with granted := k.granted, arrived := k.arrived }

/-! ## Timers that have reached their value -/

/-- A timer that counts this tick reaches a value. -/
theorem counted_reaches (timer : Option Nat) (value : Nat) :
    (timer.map (· + 1)).any (value ≤ ·) = true ↔ ∃ n, timer = some n ∧ value ≤ n + 1 := by
  cases timer with
  | none => simp
  | some n => simp

theorem counted_reaches_ticks (timer : Option Nat) (unit count : Nat) :
    (timer.map (· + 1)).any (count * unit ≤ ·) = true ↔ ∃ n, timer = some n ∧ unit * count ≤ n + 1 := by
  rw [counted_reaches, Nat.mul_comm]

/-- R37, R40: the gap timer of a channel reaches its timeout at this tick. -/
theorem gapReached_countTick (s : State) (ch : Chan) : (s.countTick.chan ch).gapReached = true
    ↔ (s.chan ch).monitor.evaluating = true ∧ (s.chan ch).monitor.state ≠ .noclock
      ∧ ∃ g, (s.chan ch).monitor.gap = some g ∧ 10 * (s.chan ch).prog.clockTimeout ≤ g + 1 := by
  rw [countTick_chan]
  unfold Channel.gapReached Channel.tick Monitor.tick
  cases he : (s.chan ch).monitor.evaluating with
  | false => simp [he]
  | true =>
    simp only [if_true, Bool.and_eq_true, Bool.true_and, bne_iff_ne, true_and]
    exact and_congr_right fun _ => counted_reaches_ticks _ 10 (s.chan ch).prog.clockTimeout

theorem captureReached_countTick (s : State) (ch : Chan) :
    s.countTick.holdoffReached (s.countTick.chan ch).wb.holdoff = true
      ↔ ∃ n, (s.chan ch).wb.holdoff = some n ∧ 10 * s.params.holdoffUs.toNat ≤ n + 1 := by
  rw [countTick_chan]
  exact counted_reaches_ticks _ 10 s.params.holdoffUs.toNat

theorem journalReached_countTick (s : State) : s.countTick.holdoffReached s.countTick.events.holdoff = true
    ↔ ∃ n, s.events.holdoff = some n ∧ 10 * s.params.holdoffUs.toNat ≤ n + 1 :=
  counted_reaches_ticks _ 10 s.params.holdoffUs.toNat

theorem pollReached_countTick (s : State) : s.countTick.idlePollReached = true
    ↔ ∃ n, s.idlePoll = some n ∧ 10000 * s.params.idlePollMs.toNat ≤ n + 1 :=
  counted_reaches_ticks _ 10000 s.params.idlePollMs.toNat

theorem responseReached_countTick (s : State) : s.countTick.responseReached = true
    ↔ ∃ n, s.port.timer = some n ∧ 6500 ≤ n + 1 := counted_reaches _ 6500

/-! ## Expiries -/

/-- An operation that does something on one channel only. -/
theorem forChans_only {f : Chan → State → State} (h : ∀ c, c ≠ ch → ∀ u, f c u = u) (s : State) :
    s.forChans f = f ch s := by
  unfold State.forChans allChans
  simp only [List.foldl_cons, List.foldl_nil]
  cases ch <;> simp [h]

/-- R37: the gap timers that have reached their value, on the state in which that is read. -/
def State.gapsExpired (s : State) : State :=
  s.forChans fun ch u => if (s.chan ch).gapReached then u.gapExpired ch else u

theorem gapsExpired_none (h : ∀ ch, ¬(s.chan ch).gapReached = true) : s.gapsExpired = s :=
  forChans_same fun ch => if_neg (h ch)

theorem gapsExpired_only (h : (s.chan ch).gapReached = true) (hn : ∀ c, c ≠ ch → ¬(s.chan c).gapReached = true) :
    s.gapsExpired = s.gapExpired ch := by
  unfold State.gapsExpired
  rw [forChans_only (ch := ch) fun c hc u => if_neg (hn c hc), if_pos h]

/-- R130: the capture holdoff timers that have reached their value in `s`. -/
def State.captureNotices (s t : State) : State :=
  t.forChans fun ch u => if s.holdoffReached (s.chan ch).wb.holdoff then u.captureNotice ch else u

theorem captureNotices_none (h : ∀ ch, ¬s.holdoffReached (s.chan ch).wb.holdoff = true) (t : State) :
    s.captureNotices t = t := forChans_same fun ch => if_neg (h ch)

theorem captureNotices_only (h : s.holdoffReached (s.chan ch).wb.holdoff = true)
    (hn : ∀ c, c ≠ ch → ¬s.holdoffReached (s.chan c).wb.holdoff = true) (t : State) :
    s.captureNotices t = t.captureNotice ch := by
  unfold State.captureNotices
  rw [forChans_only (ch := ch) fun c hc u => if_neg (hn c hc), if_pos h]

theorem expire_eq (s : State) : s.expire =
    let t := s.captureNotices s.gapsExpired
    let u := if s.holdoffReached s.events.holdoff then t.journalNotice else t
    let v := if s.idlePollReached then u.idlePollExpired else u
    if s.responseReached then v.timeOut else v := rfl

theorem exec_tick (h : s.resetHeld = false) : exec .timebaseTick s = .next s.countTick.expire.arbitrate := by
  rw [exec_timebaseTick, live_next _ h]
  rfl

theorem timeOut_inv (k : s.Inv) : s.timeOut.Inv := by
  unfold State.timeOut
  split
  · exact k
  · exact complete_inv k.toSound _ _

theorem countTick_some {timer : Option Nat} {value : Nat} (h : ∃ n, timer = some n ∧ value ≤ n + 1) :
    (timer.map (· + 1)).isSome = true := by
  obtain ⟨n, hn, _⟩ := h
  rw [hn]
  rfl

/-- Settles O28: no expiry, or the expiry of the one timer that has reached its value, on the state counted. -/
theorem tick : Obligations.Tick := by
  intro s h k counted gap capture journal poll response tick
  have hc : counted = s.countTick := (countTick_eq s).symm
  have kc := k.countTick
  have hlive : s.countTick.resetHeld = false := h
  rw [show tick = .next s.countTick.expire.arbitrate from exec_tick h, hc, expire_eq]
  have gaps : (∀ c, ¬gap c) → s.countTick.gapsExpired = s.countTick := fun hg =>
    gapsExpired_none fun ch e => hg ch ((gapReached_countTick s ch).1 e)
  have captures : (∀ c, ¬capture c) → ∀ t, s.countTick.captureNotices t = t := fun hg =>
    captureNotices_none fun ch e => hg ch ((captureReached_countTick s ch).1 e)
  have noJournal : ¬journal → ¬s.countTick.holdoffReached s.countTick.events.holdoff = true :=
    mt (journalReached_countTick s).1
  have noPoll : ¬poll → ¬s.countTick.idlePollReached = true := mt (pollReached_countTick s).1
  have noResponse : ¬response → ¬s.countTick.responseReached = true := mt (responseReached_countTick s).1
  refine ⟨fun hg hcap hj hp hr => ?none, fun ch hg hog hcap hj hp hr => ?gap, fun ch hg hcap hoc hj hp hr => ?capture,
    fun hg hcap hj hp hr => ?journal, fun hg hcap hj hp hr => ?poll, fun hg hcap hj hp hr => ?response⟩
  case none =>
    dsimp only
    rw [gaps hg, captures hcap, if_neg (noJournal hj), if_neg (noPoll hp), if_neg (noResponse hr), kc.arbitrate]
  case gap =>
    dsimp only
    rw [captures hcap, if_neg (noJournal hj), if_neg (noPoll hp), if_neg (noResponse hr),
      gapsExpired_only ((gapReached_countTick s ch).2 hg) fun c hne e => hog c hne ((gapReached_countTick s c).1 e)]
    have hrunning : (s.countTick.chan ch).gapRunning = true := by
      obtain ⟨he, hn, _⟩ := hg
      have hmon : (s.countTick.chan ch).monitor.evaluating = true ∧ (s.countTick.chan ch).monitor.state ≠ .noclock := by
        rw [countTick_chan]
        unfold Channel.tick Monitor.tick
        rw [if_pos he]
        exact ⟨he, hn⟩
      unfold Channel.gapRunning
      rw [hmon.1, bne_iff_ne.2 hmon.2]
      rfl
    rw [exec_gapTimerExpiry, live_next _ hlive, if_pos hrunning]
  case capture =>
    dsimp only
    rw [gaps hg, if_neg (noJournal hj), if_neg (noPoll hp), if_neg (noResponse hr),
      captureNotices_only ((captureReached_countTick s ch).2 hcap) fun c hne e =>
        hoc c hne ((captureReached_countTick s c).1 e)]
    have hsome : (s.countTick.chan ch).wb.holdoff.isSome = true := by
      rw [countTick_chan]
      exact countTick_some hcap
    have hsame : (s.countTick.captureNotice ch).arbitrate = s.countTick.captureNotice ch :=
      arbitrate_of_granted _ kc.granted kc.arrived
    rw [exec_captureHoldoffExpiry, live_next _ hlive, if_pos hsome, hsame]
  case journal =>
    dsimp only
    rw [gaps hg, captures hcap, if_pos ((journalReached_countTick s).2 hj), if_neg (noPoll hp), if_neg (noResponse hr)]
    have hsome : s.countTick.events.holdoff.isSome = true := countTick_some hj
    have hsame : s.countTick.journalNotice.arbitrate = s.countTick.journalNotice :=
      arbitrate_of_granted _ kc.granted kc.arrived
    rw [exec_journalHoldoffExpiry, live_next _ hlive, if_pos hsome, hsame]
  case poll =>
    dsimp only
    rw [gaps hg, captures hcap, if_neg (noJournal hj), if_pos ((pollReached_countTick s).2 hp), if_neg (noResponse hr)]
    have hsome : s.countTick.idlePoll.isSome = true := countTick_some hp
    rw [exec_idlePollExpiry, live_next _ hlive, if_pos hsome]
  case response =>
    dsimp only
    rw [gaps hg, captures hcap, if_neg (noJournal hj), if_neg (noPoll hp), if_pos ((responseReached_countTick s).2 hr)]
    rw [exec_responseTimeout, live_next _ hlive, (timeOut_inv kc).arbitrate]

end Sys2Proof.Machine
end

section
/-! PROOFS. The memory port (R174 to R181): the arrival of requests, what each transaction carries, and the completions on which
nobody acts. -/

namespace Sys2Proof.Machine

variable {s t u : State} {ch : Chan} {p : Port} {r : Request}

/-! ## The classes -/

theorem classOf_a_iff (r : Request) : r.classOf = .a ↔ r = .mirrorWrite ∨ r = .journalRecord ∨ r = .journalMark
    ∨ r = .testStatus ∨ ∃ ch, r = .statusWrite ch ∨ r = .generationWrite ch ∨ r = .markWrite ch ∨ r = .blockWrite ch
      ∨ r = .servedWrite ch := by
  cases r <;> simp [Request.classOf]

theorem classOf_b_iff (r : Request) : r.classOf = .b ↔ r = .headerRead ∨ r = .journalReRead ∨ r = .testSample
    ∨ r = .blockFetch ∨ ∃ ch, r = .slotRead ch ∨ r = .fetchFixed ch ∨ r = .fetchTail ch ∨ r = .reRead ch := by
  cases r <;> simp [Request.classOf]

theorem classOf_c_iff (r : Request) : r.classOf = .c ↔ ∃ ch, r = .recordBurst ch := by
  cases r <;> simp [Request.classOf]

/-! ## One request that arrives -/

theorem waiting_eq_queued (h : p.arrivals = []) (r : Request) : p.waiting r = p.queued r := by
  unfold Port.waiting
  rw [h]
  exact Bool.or_false _

theorem join_of_classA (p : Port) (h : r.classOf = .a) : p.join r = { p with classA := p.classA ++ [r] } := by
  unfold Port.join
  split
  · cases h
  · exact if_pos h

theorem join_of_classB (p : Port) (h : r.classOf = .b) : p.join r = { p with classB := p.classB ++ [r] } := by
  unfold Port.join
  split
  · cases h
  · exact if_neg (by rw [h]; exact fun e => nomatch e)

theorem join_inFlight (p : Port) (r : Request) : (p.join r).inFlight = p.inFlight := by
  rw [join_others]

/-- R176: at a busy port a request is enlisted, and nothing else happens. -/
theorem arrive_busy {x : Transaction} (h : s.port.inFlight ≠ none) :
    s.arrive x = { s with port := s.port.enlist x.request } := by
  refine grantAs_of_granted _ _ (Or.inl ?_)
  show (s.port.enlist x.request).inFlight ≠ none
  rw [enlist_others]
  exact h

theorem enlist_waiting (h : p.queued r = true) : p.enlist r = p := if_pos h

theorem enlist_new (h : p.queued r = false) : p.enlist r = p.join r := if_neg (Bool.eq_false_iff.1 h)

/-- Nothing waits at the port. -/
structure Port.Empty (p : Port) : Prop where
  classA : p.classA = []
  classB : p.classB = []
  classC : ∀ ch, p.classC.get ch = false

theorem Port.empty_of_not_waiting (hs : p.Sorted) (h : ∀ r, p.waiting r = false) : p.Empty := by
  have hq : ∀ r, p.queued r = false := fun r => ((Bool.or_eq_false_iff (y := _)).1 (h r)).1
  have hab : ∀ r : Request, r.classOf ≠ .c → r ∉ p.classA ∧ r ∉ p.classB := fun r hr => by
    have hr' := hq r
    unfold Port.queued at hr'
    split at hr'
    · exact absurd rfl hr
    · simpa using hr'
  refine ⟨List.eq_nil_iff_forall_not_mem.2 fun r hm => ?_, List.eq_nil_iff_forall_not_mem.2 fun r hm => ?_,
    fun ch => hq (.recordBurst ch)⟩
  · exact (hab r (by rw [hs.1 r hm]; exact fun e => nomatch e)).1 hm
  · exact (hab r (by rw [hs.2 r hm]; exact fun e => nomatch e)).2 hm

theorem Port.Empty.anyClassC (h : p.Empty) : p.anyClassC = false := by
  refine Bool.eq_false_iff.2 fun e => ?_
  obtain ⟨ch, hch⟩ := (anyClassC_iff p).1 e
  exact Bool.false_ne_true ((h.classC ch).symm.trans hch)

/-- R177: at an empty port the one request that joins is chosen. -/
theorem Port.Empty.choice_join (h : p.Empty) (r : Request) : (p.join r).choice = some r := by
  have hany := h.anyClassC
  cases hr : r.classOf with
  | c =>
    obtain ⟨ch, rfl⟩ := recordBurst_of_classC hr
    have hget : (p.join (.recordBurst ch)).classC.get ch = true := PerChannel.get_set ..
    have hchoice : (p.join (.recordBurst ch)).classCChoice = some ch := by
      unfold Port.classCChoice
      cases hf : (chansFrom (p.join (.recordBurst ch)).roundRobin).find? (p.join (.recordBurst ch)).classC.get with
      | none =>
        have hmem : ch ∈ chansFrom (p.join (.recordBurst ch)).roundRobin := by
          unfold chansFrom
          generalize (p.join (.recordBurst ch)).roundRobin = c
          cases c <;> cases ch <;> decide
        exact absurd hget (List.find?_eq_none.1 hf ch hmem)
      | some c =>
        by_cases hc : c = ch
        · rw [hc]
        · have hcget := List.find?_some hf
          rw [show (p.join (.recordBurst ch)).classC.get c = p.classC.get c from PerChannel.get_set_ne _ _ hc,
            h.classC c] at hcget
          cases hcget
    exact choice_of_classC (.inr ⟨h.classA, h.classB⟩) hchoice
  | a =>
    rw [join_of_classA p hr, h.classA, List.nil_append]
    exact choice_of_classA (fun e => Bool.false_ne_true (hany.symm.trans ((anyClassC_iff p).2 e.2))) rfl
  | b =>
    rw [join_of_classB p hr, h.classB, List.nil_append]
    exact choice_of_classB (fun e => Bool.false_ne_true (hany.symm.trans ((anyClassC_iff p).2 e.2))) h.classA rfl

/-- The round-robin pointer after the grant of a request that found the port empty (R178). -/
def Port.roundRobinAfter (p : Port) (r : Request) : Chan :=
  match r with
  | .recordBurst ch => chanAfter ch
  | _ => p.roundRobin

theorem Port.roundRobinAfter_of_ne (p : Port) (h : r.classOf ≠ .c) : p.roundRobinAfter r = p.roundRobin := by
  unfold Port.roundRobinAfter
  split
  · exact absurd rfl h
  · rfl

/-- R178, R179: a request that joins an empty port and is granted leaves it empty. -/
theorem Port.Empty.depart_join (h : p.Empty) (r : Request) :
    (p.join r).depart r = { p with guard := 0, roundRobin := p.roundRobinAfter r } := by
  have hany := h.anyClassC
  cases hr : r.classOf with
  | c =>
    obtain ⟨ch, rfl⟩ := recordBurst_of_classC hr
    have hset : (p.classC.set ch true).set ch false = p.classC := by
      rw [PerChannel.set_set, ← h.classC ch, PerChannel.set_get]
    show ({ p with classC := (p.classC.set ch true).set ch false, guard := 0, roundRobin := chanAfter ch } : Port) = _
    rw [hset]
    rfl
  | a =>
    have hrr := p.roundRobinAfter_of_ne (r := r) (by rw [hr]; exact fun e => nomatch e)
    have hg : Port.guardAfter { p with classA := p.classA ++ [r] } = 0 := if_neg (Bool.eq_false_iff.1 hany)
    have hA := h.classA
    rw [depart_of_classA _ hr, hrr, join_of_classA p hr, hg, hA, List.nil_append]
    show ({ p with classA := [r].erase r, guard := 0 } : Port) = _
    rw [List.erase_cons_head, ← hA]
  | b =>
    have hrr := p.roundRobinAfter_of_ne (r := r) (by rw [hr]; exact fun e => nomatch e)
    have hg : Port.guardAfter { p with classB := p.classB ++ [r] } = 0 := if_neg (Bool.eq_false_iff.1 hany)
    have hB := h.classB
    rw [depart_of_classB _ hr, hrr, join_of_classB p hr, hg, hB, List.nil_append]
    show ({ p with classB := [r].erase r, guard := 0 } : Port) = _
    rw [List.erase_cons_head, ← hB]

/-- R177, R179: a request that finds the port idle, with nothing waiting, is issued at once. -/
theorem arrive_empty (hidle : s.port.inFlight = none) (h : s.port.Empty) (hq : s.port.queued r = false) :
    s.arrive (s.transaction r) = { s with port := { s.port with
      inFlight := some (s.transaction r), timer := some 0, guard := 0, roundRobin := s.port.roundRobinAfter r } } := by
  have hr : (s.transaction r).request = r := transaction_request s r
  have hidle' : (s.port.join r).inFlight = none := by rw [join_inFlight]; exact hidle
  unfold State.arrive
  rw [hr, enlist_new hq]
  unfold State.grantAs
  dsimp only
  rw [hidle', h.choice_join r]
  dsimp only
  rw [h.depart_join r]
  unfold State.keptTransaction
  rw [if_pos hr.symm]

/-- The requests of a state without its arrivals. -/
theorem port_arrivals_nil (h : s.port.arrivals = []) :
    ({ s with port := { s.port with arrivals := [] } } : State) = s := by rw [← h]

/-- R176, log 4: two requests of one command arrive as if each came by itself. -/
theorem two_requests_arbitrate (h : s.port.arrivals = []) (r q : Request) :
    ((s.request r).request q).arbitrate = ((s.request r).arbitrate.request q).arbitrate := by
  have harrived : (s.arrive (s.transaction r)).port.arrivals = [] := (arrive_arrivals s _).trans h
  have htransaction : (s.arrive (s.transaction r)).transaction q = s.transaction q := by
    obtain ⟨p, hp⟩ := arrive_eq s (s.transaction r)
    rw [hp, transaction_port]
  have htwo : ((s.request r).request q).port.arrivals = [s.transaction r, s.transaction q] := by
    show (s.port.arrivals ++ [s.transaction r]) ++ [(s.request r).transaction q] = _
    rw [h, show (s.request r).transaction q = s.transaction q from transaction_port s _ q]
    rfl
  have hbase : ({ (s.request r).request q with
      port := { ((s.request r).request q).port with arrivals := [] } } : State) = s := port_arrivals_nil h
  rw [request_arbitrate s r h, request_arbitrate _ q harrived, htransaction]
  unfold State.arbitrate
  rw [htwo, List.foldl_cons, List.foldl_cons, List.foldl_nil, hbase]
  exact grantAs_of_granted _ _ (grantAs_granted _ _)

/-- R176: a request made at a completion joins before the grant. -/
theorem request_regrant (h : s.port.arrivals = []) (hq : s.port.queued r = false) :
    (s.request r).regrant = ({ s with port := s.port.join r } : State).grant := by
  have harrivals : (s.request r).port.arrivals = [s.transaction r] := by
    show s.port.arrivals ++ [s.transaction r] = _
    rw [h, List.nil_append]
  have hport : (s.request r).port.enlistArrivals = s.port.join r := by
    unfold Port.enlistArrivals
    rw [harrivals, List.foldl_cons, List.foldl_nil, transaction_request, ← enlist_new hq]
    exact congrArg (fun l => Port.enlist { s.port with arrivals := l } r) h.symm
  unfold State.regrant
  rw [hport]
  rfl

/-- Settles O30: the class of each request, and the four ways in which requests arrive. -/
theorem arrivals : Obligations.Arrivals := by
  refine ⟨fun r => ⟨classOf_a_iff r, classOf_b_iff r, classOf_c_iff r⟩, ?_⟩
  intro r q s hs ha p joined
  have hjoined : joined = s.port.join r := by cases r <;> rfl
  have hwait := waiting_eq_queued ha r
  have hrequest : (s.transaction r).request = r := transaction_request s r
  refine ⟨fun hf hw => ?again, fun hf hw => ?joins, fun hf hw => ?issued, two_requests_arbitrate ha r q, fun hw => ?_⟩
  case again =>
    rw [request_arbitrate s r ha, arrive_busy hf, hrequest, enlist_waiting (by rw [← hwait]; exact hw)]
  case joins =>
    rw [request_arbitrate s r ha, arrive_busy hf, hrequest, enlist_new (by rw [← hwait]; exact hw), hjoined]
  case issued =>
    rw [request_arbitrate s r ha, arrive_empty hf (Port.empty_of_not_waiting hs hw) (by rw [← hwait]; exact hw r)]
    cases r <;> rfl
  · rw [request_regrant ha (by rw [← hwait]; exact hw), hjoined]

end Sys2Proof.Machine
end

section
/-! PROOFS. What each request's transaction carries (R174, R203), and the completions on which nobody acts (R180, R181, R184). -/

namespace Sys2Proof.Machine

variable {s t u : State} {ch : Chan} {r : Request} {w : Transaction} {bytes : List Byte}

/-! ## Fields laid out as bytes -/

/-- Words laid end to end. -/
def wordBytes (words : List Word) : List Byte := words.flatMap fun w => bytesOf 4 w.toNat

theorem wordBytes_cons (x : Word) (words : List Word) : wordBytes (x :: words) = bytesOf 4 x.toNat ++ wordBytes words :=
  List.flatMap_cons

theorem wordBytes_length (words : List Word) : (wordBytes words).length = 4 * words.length := by
  induction words with
  | nil => rfl
  | cons x words ih => rw [wordBytes_cons, List.length_append, bytesOf_length, ih, List.length_cons]; omega

theorem wordAt_skip {a l : List Byte} {n : Nat} (h : a.length = n) (k : Nat) : wordAt (a ++ l) (n + k) = wordAt l k := by
  subst h
  unfold wordAt
  rw [fieldAt_append]

theorem halfAt_skip {a l : List Byte} {n : Nat} (h : a.length = n) (k : Nat) : halfAt (a ++ l) (n + k) = halfAt l k := by
  subst h
  unfold halfAt
  rw [fieldAt_append]

theorem byteAt_skip {a l : List Byte} {n : Nat} (h : a.length = n) (k : Nat) : byteAt (a ++ l) (n + k) = byteAt l k := by
  subst h
  exact byteAt_append a l k

theorem dwordAt_skip {a l : List Byte} {n : Nat} (h : a.length = n) (k : Nat) :
    dwordAt (a ++ l) (n + k) = dwordAt l k := by
  subst h
  unfold dwordAt
  rw [fieldAt_append]

/-- A word laid out among others is read back. -/
theorem wordAt_wordBytes {words : List Word} {i : Nat} {x : Word} (h : words[i]? = some x) (l : List Byte) :
    wordAt (wordBytes words ++ l) (4 * i) = x := by
  induction words generalizing i with
  | nil => cases h
  | cons y words ih =>
    rw [wordBytes_cons, List.append_assoc]
    cases i with
    | zero =>
      cases h
      rw [Nat.mul_zero, wordAt_bytesOf, BitVec.ofNat_toNat, BitVec.setWidth_eq]
    | succ i => rw [Nat.mul_succ, Nat.add_comm, wordAt_skip (bytesOf_length 4 _), ih h]

/-- The half that follows words. -/
theorem halfAt_wordBytes (words : List Word) (value : Nat) (l : List Byte) :
    halfAt (wordBytes words ++ (bytesOf 2 value ++ l)) (4 * words.length) = BitVec.ofNat 16 value := by
  rw [← Nat.add_zero (4 * words.length), halfAt_skip (wordBytes_length words), halfAt_bytesOf]

/-! ## What the writes carry -/

theorem generationWords_eq (p : ProgramUnit) :
    p.generationWords = wordBytes [p.adopted, p.rejected] ++ (bytesOf 2 (rejectCode p.rejectReason) ++ []) := by
  simp [ProgramUnit.generationWords, wordBytes]

theorem markWords_eq (w : Writeback) : w.markWords = wordBytes [w.writeMark, w.acceptedRelease] ++ [] := by
  simp [Writeback.markWords, wordBytes]

theorem journalMarkWords_eq (e : EventUnit) :
    e.markWords = wordBytes [e.writeMark, e.acceptedRelease, e.droppedTotal, e.badReleases] ++ [] := by
  simp [EventUnit.markWords, wordBytes]

theorem testStatusWords_eq (t : TestSource) : t.statusWords = wordBytes [t.adopted, t.rejected]
    ++ (bytesOf 2 (testRejectCode t.rejectReason) ++ bytesOf 1 (if t.state = .running then 1 else 0)) := by
  simp [TestSource.statusWords, wordBytes]

/-- The counters of a statistics block, in their order (08 section 8.1). -/
def Counters.blockList (c : Counters) : List Word :=
  [c.framesLocked, c.framesCaptured, c.flywheelFrames, c.syncBitErrors, c.losses, c.slips, c.polarityFlips, c.dropsNoroom,
    c.dropsStall, c.truncatedRecords, c.tornReads, c.quietEntries, c.noclockEntries, c.badReleases, c.recordsWritten]

theorem blockWords_eq (n : Snapshot) : n.blockWords
    = (bytesOf 8 n.time.toNat ++ bytesOf 8 n.counters.bytesWritten.toNat) ++ (wordBytes n.counters.blockList ++ []) := by
  rw [List.append_nil]
  rfl

theorem dwordAt_start (x : Dword) (l : List Byte) : dwordAt (bytesOf 8 x.toNat ++ l) 0 = x := by
  rw [dwordAt_bytesOf, BitVec.ofNat_toNat, BitVec.setWidth_eq]

/-- R155: a counter of the statistics block. -/
theorem wordAt_blockWords {n : Snapshot} {i : Nat} {x : Word} (h : n.counters.blockList[i]? = some x) :
    wordAt n.blockWords (16 + 4 * i) = x := by
  rw [blockWords_eq, wordAt_skip (by rw [List.length_append, bytesOf_length, bytesOf_length]), wordAt_wordBytes h]

/-- R30: the bytes of a slot status write. -/
theorem statusWords_eq (c : Channel) : c.statusWords = [BitVec.ofNat 8 (runStateCode c.prog.runState),
    if c.prog.runState = .running then BitVec.ofNat 8 (syncStateCode c.sync.state) else 0,
    BitVec.ofNat 8 (activityCode c.monitor.state), c.prog.runIndex, if c.sync.inverted then 1 else 0] := by
  have hsync : BitVec.ofNat 8 (syncStateCode (if c.prog.runState = .running then c.sync.state else .off))
      = if c.prog.runState = .running then BitVec.ofNat 8 (syncStateCode c.sync.state) else 0 := by split <;> rfl
  have hinverted : BitVec.ofNat 8 (inversionCode c.sync.inverted) = if c.sync.inverted then 1 else 0 := by
    cases c.sync.inverted <;> rfl
  rw [← hsync, ← hinverted]
  rfl

/-- R176: a write is as long as the bytes it carries. -/
theorem transaction_length (s : State) {r : Request} (h : r.isWrite = true) :
    (s.transaction r).length = (s.transaction r).data.length := by
  cases r with
  | headerRead | slotRead | fetchFixed | fetchTail | reRead | journalReRead | testSample | blockFetch => cases h
  | _ => rfl

/-- Settles O31: the address, the length and the bytes of each transaction, read off its definition. -/
theorem transactions : Obligations.Transactions := by
  intro ch s base slot c t
  refine ⟨fun r => ⟨transaction_request s r, transaction_length s, transaction_reads s r⟩, ⟨rfl, rfl⟩, ⟨rfl, rfl⟩, ⟨rfl, rfl⟩,
    ⟨rfl, rfl⟩, ⟨rfl, rfl⟩, fun f hf => ⟨?fixed, rfl⟩, fun f hf => ⟨?block, rfl⟩, ⟨rfl, rfl⟩, ⟨rfl, ?generation⟩,
    ⟨rfl, statusWords_eq c⟩, ⟨rfl, ?marks⟩, ⟨rfl, rfl, ?served⟩, fun n hn => ⟨rfl, ?snapshot⟩, ⟨rfl, ?journalMarks⟩,
    ⟨rfl, ?test⟩, fun g b rest hp => ⟨?burst, ?burstBytes⟩, fun r hr => ?journal⟩
  case fixed => show c.prog.fetchPointer = _; unfold ProgramUnit.fetchPointer; rw [hf]; rfl
  case block => show (s.test.fetch.map fun f => f.pointer.toNat).getD 0 = _; rw [hf]; rfl
  case generation =>
    show c.prog.generationWords.length = 10 ∧ wordAt c.prog.generationWords 0 = _ ∧ wordAt c.prog.generationWords 4 = _
      ∧ halfAt c.prog.generationWords 8 = _
    rw [generationWords_eq]
    exact ⟨rfl, wordAt_wordBytes (i := 0) rfl _, wordAt_wordBytes (i := 1) rfl _, halfAt_wordBytes [_, _] _ _⟩
  case marks =>
    show c.wb.markWords.length = 8 ∧ wordAt c.wb.markWords 0 = _ ∧ wordAt c.wb.markWords 4 = _
    rw [markWords_eq]
    exact ⟨rfl, wordAt_wordBytes (i := 0) rfl _, wordAt_wordBytes (i := 1) rfl _⟩
  case served =>
    show halfAt (bytesOf 2 c.stats.served.toNat) 0 = _
    rw [← List.append_nil (bytesOf 2 _), halfAt_bytesOf, BitVec.ofNat_toNat, BitVec.setWidth_eq]
  case snapshot =>
    have hdata : (t (.blockWrite ch)).data = n.blockWords := by
      show ((c.stats.latch.map Snapshot.blockWords).getD []) = _
      rw [hn]
      rfl
    rw [hdata]
    refine ⟨rfl, ?_, ?_, wordAt_blockWords (i := 0) rfl, wordAt_blockWords (i := 1) rfl, wordAt_blockWords (i := 2) rfl,
      wordAt_blockWords (i := 3) rfl, wordAt_blockWords (i := 4) rfl, wordAt_blockWords (i := 5) rfl,
      wordAt_blockWords (i := 6) rfl, wordAt_blockWords (i := 7) rfl, wordAt_blockWords (i := 8) rfl,
      wordAt_blockWords (i := 9) rfl, wordAt_blockWords (i := 10) rfl, wordAt_blockWords (i := 11) rfl,
      wordAt_blockWords (i := 12) rfl, wordAt_blockWords (i := 13) rfl, wordAt_blockWords (i := 14) rfl⟩
    · rw [blockWords_eq, List.append_assoc, dwordAt_start]
    · rw [blockWords_eq, List.append_assoc]
      exact (dwordAt_skip (bytesOf_length 8 _) 0).trans (dwordAt_start _ _)
  case journalMarks =>
    show s.events.markWords.length = 16 ∧ wordAt s.events.markWords 0 = _ ∧ wordAt s.events.markWords 4 = _
      ∧ wordAt s.events.markWords 8 = _ ∧ wordAt s.events.markWords 12 = _
    rw [journalMarkWords_eq]
    exact ⟨rfl, wordAt_wordBytes (i := 0) rfl _, wordAt_wordBytes (i := 1) rfl _, wordAt_wordBytes (i := 2) rfl _,
      wordAt_wordBytes (i := 3) rfl _⟩
  case test =>
    show s.test.statusWords.length = 11 ∧ wordAt s.test.statusWords 0 = _ ∧ wordAt s.test.statusWords 4 = _
      ∧ halfAt s.test.statusWords 8 = _ ∧ byteAt s.test.statusWords 10 = _
    rw [testStatusWords_eq]
    refine ⟨rfl, wordAt_wordBytes (i := 0) rfl _, wordAt_wordBytes (i := 1) rfl _, halfAt_wordBytes [_, _] _ _, ?_⟩
    rw [← List.append_assoc]
    refine (byteAt_skip (n := 10) rfl 0).trans ?_
    split <;> rfl
  case burst => show c.wb.placement.burst.address = _; rw [hp]; rfl
  case burstBytes => show c.wb.placement.burst.bytes = _; rw [hp]; rfl
  case journal =>
    show (r.secondPart = false → s.journalPart.address = _ ∧ s.journalPart.bytes = _)
      ∧ (r.secondPart = true → s.journalPart.address = _ ∧ s.journalPart.bytes = _)
    unfold State.journalPart
    rw [hr]
    exact ⟨fun h => by simp [h], fun h => by simp [h]⟩

/-! ## The response timer and late responses -/

/-- R181: a response to a request that is not in flight changes nothing. -/
theorem respond_other {q : Request} (h : ∀ w, s.port.inFlight = some w → w.request ≠ q) (r : ReadResponse) :
    s.respond q r = .next s := by
  unfold State.respond
  cases hf : s.port.inFlight with
  | none => rfl
  | some w => exact if_neg fun e => h w hf e.1

/-- R180: an ERROR completes the transaction in flight. -/
theorem respond_error_flying (h : s.resetHeld = false) (hf : s.port.inFlight = some w) :
    s.respond w.request .error = .next (s.complete w .error) := by
  unfold State.respond
  rw [hf]
  exact (if_pos ⟨rfl, h⟩).trans (if_pos rfl)

/-- R180: an OKAY completes the transaction in flight. -/
theorem respond_okay_flying (h : s.resetHeld = false) (hf : s.port.inFlight = some w)
    (hb : w.request.isWrite = true ∨ bytes.length = w.length) :
    s.respond w.request (.okay bytes) = .next (s.complete w (.okay bytes)) := by
  have hfits : w.fits (.okay bytes) = true := by
    show (w.request.isWrite || bytes.length == w.length) = true
    rcases hb with hb | hb
    · rw [hb, Bool.true_or]
    · rw [hb, beq_self_eq_true, Bool.or_true]
  unfold State.respond
  rw [hf]
  exact (if_pos ⟨rfl, h⟩).trans (if_pos hfits)

/-- R180: the end of the response timer is an ERROR. -/
theorem exec_responseTimeout_flying (hf : s.port.inFlight = some w) :
    exec .responseTimeout s = exec w.request.failure s ∧ ∃ u, exec .responseTimeout s = .next u := by
  have htimeout : s.timeOut = s.complete w .error := by
    unfold State.timeOut
    rw [hf]
  rw [exec_responseTimeout, exec_failure]
  cases h : s.resetHeld with
  | true => rw [live_held _ h, respond_held h]; exact ⟨rfl, _, rfl⟩
  | false => rw [live_next _ h, htimeout, respond_error_flying h hf]; exact ⟨rfl, _, rfl⟩

/-- Settles O32: the response timer's end, and responses that come late. -/
theorem timeoutAndLateResponse : Obligations.TimeoutAndLateResponse := by
  intro s r q bytes
  refine ⟨fun hf => ?_, fun w => exec_responseTimeout_flying, rfl, fun hq => ⟨?_, ?_⟩⟩
  · rw [exec_responseTimeout]
    exact live_same (by unfold State.timeOut; rw [hf])
  · rw [exec_failure, respond_other hq]
  · rw [exec_success, respond_other hq]

/-! ## Completions on which nobody acts -/

/-- R184: the result of a transaction that STARTING has disowned reaches nobody. -/
theorem deliver_orphan (h : w.orphan = true) (r : ReadResponse) : s.deliver w r = s := if_pos h

/-- R174: the bytes placed by a write read back. -/
theorem placeBytes_read (s : State) (w : Transaction) (hspace : w.address + w.data.length ≤ 2 ^ 48) (i : Nat) (b : Byte)
    (hb : w.data[i]? = some b) : Memory.read (s.placeBytes w).mem (w.address + i) = some b := by
  have hi : i < w.data.length := (List.getElem?_eq_some_iff.1 hb).1
  rw [← hb]
  exact Memory.read_writeAll s.mem w.address w.data i hi hspace

/-- R180: the OKAY of a write whose requester does nothing with it. -/
theorem respond_written_quiet (ha : s.Answering r w) (hw : r.isWrite = true)
    (hs : (s.freePort.placeBytes w).succeeded w [] = s.freePort.placeBytes w) :
    s.respond r (.okay []) = .next (s.freePort.placeBytes w).settle.regrant := by
  rw [respond_written ha hw, complete_write ha, hs]

/-- Settles O33: the bytes reach memory, and nothing else comes of the completion. -/
theorem quietCompletions : Obligations.QuietCompletions := by
  intro ch w bytes s elsewhere
  have quiet : ∀ r : Request, r = .mirrorWrite ∨ r = .generationWrite ch ∨ r = .statusWrite ch ∨ r = .servedWrite ch
      ∨ r = .testStatus → s.Answering r w → exec (r.success []) s = .next (s.freePort.placeBytes w).settle.regrant :=
    fun r hr ha => by
      have hwrite : r.isWrite = true := by rcases hr with rfl | rfl | rfl | rfl | rfl <;> rfl
      rw [exec_success, if_pos hwrite, respond_written_quiet ha hwrite]
      unfold State.succeeded
      rw [ha.request]
      rcases hr with rfl | rfl | rfl | rfl | rfl <;> rfl
  refine ⟨⟨s.freePort.placeBytes w, quiet .mirrorWrite (by simp), quiet (.generationWrite ch) (by simp),
    quiet (.statusWrite ch) (by simp), quiet (.servedWrite ch) (by simp), quiet .testStatus (by simp), ?orphan, rfl, rfl,
    rfl, placeBytes_read s.freePort w, fun a => placeBytes_elsewhere s.freePort w a⟩, ?failed⟩
  case orphan =>
    intro h hf ho hb
    rw [exec_success]
    have hlength : w.request.isWrite = true ∨ (if w.request.isWrite then [] else bytes).length = w.length := by
      cases hw : w.request.isWrite with
      | true => exact .inl rfl
      | false => exact .inr (hb hw)
    rw [respond_okay_flying h hf hlength]
    unfold State.complete
    rw [deliver_orphan ho]
    rfl
  case failed =>
    intro h hf ho
    refine ⟨s.freePort.spoilBytes w, ?_, rfl, rfl, fun a => spoilBytes_elsewhere s.freePort w a⟩
    rw [exec_failure, respond_error_flying h hf]
    unfold State.complete
    rw [deliver_orphan ho]
    rfl

end Sys2Proof.Machine
end

section
/-! PROOFS. Slot reads and fetches (R75 to R81): what each read brings, and what becomes of the program it brings. -/

namespace Sys2Proof.Machine

variable {s t u : State} {ch : Chan} {r : Request} {w : Transaction} {bytes : List Byte}

/-! ## Completions of reads and writes, as commands -/

theorem read_completes (k : s.Inv) (ha : s.Answering r w) (hr : r.isWrite = false) (hb : bytes.length = w.length) :
    exec (r.success bytes) s = .next ((s.freePort.succeeded w bytes).settle).regrant := by
  rw [exec_success, hr, if_neg Bool.false_ne_true, respond_read ha hb, complete_read ha k.reads hr]

theorem read_fails (k : s.Inv) (ha : s.Answering r w) (hr : r.isWrite = false) :
    exec r.failure s = .next ((s.freePort.failed w).settle).regrant := by
  rw [exec_failure, respond_error ha, complete_read_error ha k.reads hr]

/-! ## Slot reads -/

theorem succeeded_slotRead (h : w.request = .slotRead ch) (s : State) (bytes : List Byte) :
    s.succeeded w bytes = s.slotReadDone ch (SlotWords.parse bytes) := by
  unfold State.succeeded
  rw [h]

theorem slotReadDone_running (h : s.device = .running) (v : SlotWords) : s.slotReadDone ch v
    = (((s.modProg ch fun p => { p with
        latestAreaBase := v.areaBase, latestAreaSize := v.areaSize, latestRelease := v.release }).offerRelease ch
      v.release).offerStats ch v.statsRequest v.statsClear).examine ch v.generation v.pointer := if_pos h

theorem slotReadDone_idle (h : s.device ≠ .running) (v : SlotWords) : s.slotReadDone ch v
    = ((s.modProg ch fun p => { p with
        latestAreaBase := v.areaBase, latestAreaSize := v.areaSize, latestRelease := v.release }).offerRelease ch
      v.release).offerStats ch v.statsRequest v.statsClear := if_neg h

/-- R76: a generation is new. -/
theorem isNew_iff (p : ProgramUnit) (generation : Word) : p.isNew generation = true ↔ generation ≠ 0
    ∧ generation ≠ p.adopted ∧ generation ≠ p.rejected ∧ ∀ q, p.held = some q → q.generation ≠ generation := by
  unfold ProgramUnit.isNew
  simp only [Bool.and_eq_true, bne_iff_ne, and_assoc]
  refine and_congr_right fun _ => and_congr_right fun _ => and_congr_right fun _ => ?_
  cases p.held with
  | none => simp
  | some q => simp

theorem examine_known {generation : Word} {pointer : Dword}
    (h : ¬(s.chan ch).prog.isNew generation = true ∨ (s.chan ch).prog.fetch ≠ none) :
    s.examine ch generation pointer = s := if_neg fun e => h.elim (fun h => h e.1) fun h => h e.2

theorem examine_fetches {generation : Word} {pointer : Dword} (hn : (s.chan ch).prog.isNew generation = true)
    (hf : (s.chan ch).prog.fetch = none) (hu : addressUsable pointer 8 = true) : s.examine ch generation pointer
      = (s.modProg ch fun p => { p with fetch := some ⟨generation, pointer, none⟩ }).request (.fetchFixed ch) :=
  (if_pos ⟨hn, hf⟩).trans (if_pos hu)

theorem examine_refuses {generation : Word} {pointer : Dword} (hn : (s.chan ch).prog.isNew generation = true)
    (hf : (s.chan ch).prog.fetch = none) (hu : ¬addressUsable pointer 8 = true) :
    s.examine ch generation pointer = s.reject ch generation .address := (if_pos ⟨hn, hf⟩).trans (if_neg hu)

/-- Settles O34: the slot words handed on, and the examination of the generation. -/
theorem slotRead : Obligations.SlotRead := by
  refine ⟨fun ch bytes w s k ha hb => ?read, fun ch generation pointer s => ?examined⟩
  case read =>
    have hexec := read_completes k ha rfl hb
    rw [succeeded_slotRead ha.request] at hexec
    refine ⟨fun hd => ?_, fun hd => ?_⟩
    · rw [slotReadDone_running (s := s.freePort) hd] at hexec
      exact hexec
    · rw [slotReadDone_idle (s := s.freePort) hd] at hexec
      exact hexec
  case examined =>
    intro p u new usable
    have hnew : p.isNew generation = true ↔ new := isNew_iff p generation
    have husable : addressUsable pointer 8 = true ↔ usable := addressUsable_iff pointer 8
    refine ⟨fun h => examine_known (h.imp_left fun h e => h (hnew.1 e)), fun hn hf hu =>
      examine_fetches (hnew.2 hn) hf (husable.2 hu), fun hn hf hu => ?_⟩
    have hreject : u = s.reject ch generation .address := examine_refuses (hnew.2 hn) hf fun e => hu (husable.1 e)
    rw [hreject]
    exact reject_leaves s ch generation .address

/-! ## The reads of a fetch -/

theorem succeeded_fetchFixed (h : w.request = .fetchFixed ch) (s : State) (bytes : List Byte) :
    s.succeeded w bytes = s.fixedDone ch bytes := by
  unfold State.succeeded
  rw [h]

theorem succeeded_fetchTail (h : w.request = .fetchTail ch) (s : State) (bytes : List Byte) :
    s.succeeded w bytes = s.tailDone ch bytes := by
  unfold State.succeeded
  rw [h]

theorem failed_fetch (h : w.request = .fetchFixed ch ∨ w.request = .fetchTail ch) (s : State) :
    s.failed w = s.fetchFailed ch := by
  unfold State.failed
  rcases h with h | h <;> rw [h]

theorem fetchFailed_running {f : Fetch} (hf : (s.chan ch).prog.fetch = some f) (hd : s.device = .running) :
    s.fetchFailed ch = (s.endFetch ch).reject ch f.generation .fetchError := by
  unfold State.fetchFailed
  rw [hf]
  exact if_pos hd

theorem fetchFailed_idle {f : Fetch} (hf : (s.chan ch).prog.fetch = some f) (hd : s.device ≠ .running) :
    s.fetchFailed ch = s.endFetch ch := by
  unfold State.fetchFailed
  rw [hf]
  exact if_neg hd

/-- R77: the second read of a fetch whose first part is held. -/
theorem transaction_fetchTail {f : Fetch} (hf : (s.chan ch).prog.fetch = some f) (hb : f.fixedPart = some bytes) :
    (s.transaction (.fetchTail ch)).address = f.pointer.toNat + (secondRead bytes).1
      ∧ (s.transaction (.fetchTail ch)).length = (secondRead bytes).2 := by
  have hpointer : (s.chan ch).prog.fetchPointer = f.pointer.toNat := by unfold ProgramUnit.fetchPointer; rw [hf]; rfl
  have hsecond : (s.chan ch).prog.fetchSecond = secondRead bytes := by
    unfold ProgramUnit.fetchSecond
    rw [hf]
    exact congrArg (fun o : Option (List Byte) => secondRead (o.getD [])) hb
  rw [← hpointer, ← hsecond]
  exact ⟨rfl, rfl⟩

/-- R80, R81, R83: a refusal once the fetch has ended. -/
theorem reject_endFetch (s : State) (ch : Chan) (generation : Word) (reason : RejectReason) :
    KeepsBut ch s ((s.endFetch ch).reject ch generation reason)
      ∧ ((s.endFetch ch).reject ch generation reason).chan ch = { s.chan ch with
        prog := { (s.chan ch).prog with fetch := none, rejected := generation, rejectReason := reason } }
      ∧ s.Reports ((s.endFetch ch).reject ch generation reason) [(some ch, .programRejected reason generation)]
      ∧ ((s.endFetch ch).reject ch generation reason).port.waiting (.generationWrite ch) = true := by
  obtain ⟨hkeeps, hchan, hreports, hwaits⟩ := reject_leaves (s.endFetch ch) ch generation reason
  refine ⟨(endFetch_keeps s ch).trans hkeeps, ?_, hreports.copy rfl rfl rfl rfl, hwaits⟩
  rw [hchan]
  unfold State.endFetch
  rw [chan_modProg]

/-- Settles O35: the first read kept, the second read placed, and a fetch whose read fails. -/
theorem fetchReads : Obligations.FetchReads := by
  intro ch w s k
  refine ⟨fun bytes ha hb => ?first, fun bytes f hf hb => ?second, fun c f hc hf => ?fails⟩
  case first =>
    have hexec := read_completes k ha rfl hb
    rw [succeeded_fetchFixed ha.request] at hexec
    exact hexec
  case second =>
    intro kind windows t
    obtain ⟨haddress, hlength⟩ := transaction_fetchTail hf hb
    refine ⟨fun hk => ?_, fun hk h1 h8 => ?_, fun hk hw => ?_⟩
    · have he : secondRead bytes = (8, 8) := if_pos hk
      rw [he] at haddress hlength
      exact ⟨haddress, hlength⟩
    · have he : secondRead bytes = (48, windows * 8 + 8) := (if_neg hk).trans (if_pos ⟨h1, h8⟩)
      rw [he] at haddress hlength
      exact ⟨haddress, hlength⟩
    · have he : secondRead bytes = (48, 8) := (if_neg hk).trans (if_neg fun e => by
        have h1 : 1 ≤ windows := e.1
        have h8 : windows ≤ 8 := e.2
        omega)
      rw [he] at haddress hlength
      exact ⟨haddress, hlength⟩
  case fails =>
    have hexec : exec c s = .next (s.freePort.fetchFailed ch).settle.regrant := by
      rcases hc with ⟨ha, rfl⟩ | ⟨ha, rfl⟩
      · exact (read_fails k ha rfl).trans (by rw [failed_fetch (.inl ha.request)])
      · exact (read_fails k ha rfl).trans (by rw [failed_fetch (.inr ha.request)])
    have hf' : (s.freePort.chan ch).prog.fetch = some f := hf
    refine ⟨fun hd => ?_, fun hd => ?_⟩
    · rw [hexec, fetchFailed_idle hf' hd]
      rfl
    · obtain ⟨hkeeps, hchan, hreports, hwaits⟩ := reject_endFetch s.freePort ch f.generation .fetchError
      exact ⟨_, by rw [hexec, fetchFailed_running hf' hd], hkeeps, hchan, hreports.copy rfl rfl rfl rfl, hwaits⟩

/-! ## The second read -/

theorem tailDone_idle {f : Fetch} (hf : (s.chan ch).prog.fetch = some f) (hd : s.device ≠ .running) :
    s.tailDone ch bytes = s.endFetch ch := by
  unfold State.tailDone
  rw [hf]
  exact if_neg hd

theorem torn_iff (f : Fetch) (fixedPart bytes : List Byte) : f.torn fixedPart bytes = true
    ↔ ¬(wordAt fixedPart 0 = f.generation ∧ wordAt bytes (bytes.length - 8) = f.generation) := by
  unfold Fetch.torn tailGeneration
  rw [Bool.not_eq_true', Bool.and_eq_false_iff, beq_eq_false_iff_ne, beq_eq_false_iff_ne, Classical.not_and_iff_not_or_not]

theorem tailDone_torn {f : Fetch} {fixedPart : List Byte} (hf : (s.chan ch).prog.fetch = some f)
    (hp : f.fixedPart = some fixedPart) (hd : s.device = .running) (ht : f.torn fixedPart bytes = true) :
    s.tailDone ch bytes = (s.endFetch ch).fetchTorn ch f := by
  unfold State.tailDone
  rw [hf]
  dsimp only
  rw [if_pos hd, hp]
  exact if_pos ht

theorem tailDone_whole {f : Fetch} {fixedPart : List Byte} (hf : (s.chan ch).prog.fetch = some f)
    (hp : f.fixedPart = some fixedPart) (hd : s.device = .running) (ht : ¬f.torn fixedPart bytes = true) :
    s.tailDone ch bytes = (s.endFetch ch).fetchWhole ch fixedPart bytes := by
  unfold State.tailDone
  rw [hf]
  dsimp only
  rw [if_pos hd, hp]
  exact if_neg ht

theorem fetchWhole_refused {fixedPart : List Byte} {q : Program} {reason : RejectReason}
    (h : parseProgram fixedPart bytes = (q, reason)) (hr : reason ≠ .none) : s.fetchWhole ch fixedPart bytes
      = (s.modProg ch fun p => { p with tornCount := 0 }).reject ch q.generation reason := by
  unfold State.fetchWhole
  rw [h]
  cases reason with
  | none => exact absurd rfl hr
  | _ => rfl

theorem fetchWhole_valid {fixedPart : List Byte} {q : Program} (h : parseProgram fixedPart bytes = (q, .none)) :
    s.fetchWhole ch fixedPart bytes = (s.modProg ch fun p => { p with tornCount := 0 }).decideProgram ch q := by
  unfold State.fetchWhole
  rw [h]

/-- R79: a torn fetch that is not the fourth in a row. -/
theorem fetchTorn_counted (f : Fetch) (h : (s.chan ch).prog.tornCount ≠ 3) : s.fetchTorn ch f
    = (s.count ch fun n => { n with tornReads := saturate n.tornReads 1 }).modProg ch fun p =>
      { p with tornCount := p.tornCount + 1 } := if_neg h

theorem fetchTorn_fourth (f : Fetch) (h : (s.chan ch).prog.tornCount = 3) : s.fetchTorn ch f
    = ((s.count ch fun n => { n with tornReads := saturate n.tornReads 1 }).modProg ch fun p =>
      { p with tornCount := 0 }).hand (some ch) (.programTorn f.generation) := if_pos h

theorem fetchTorn_fourth_reports (f : Fetch) (h : (s.chan ch).prog.tornCount = 3) :
    s.Reports (s.fetchTorn ch f) [(some ch, .programTorn f.generation)] := by
  rw [fetchTorn_fourth f h]
  exact (hand_reports ((s.count ch fun n => { n with tornReads := saturate n.tornReads 1 }).modProg ch fun p =>
    { p with tornCount := 0 }) (some ch) (.programTorn f.generation)).copy rfl rfl rfl rfl

/-! ## A valid program -/

theorem supersede_chan (s : State) (ch : Chan) (q : Program) :
    (s.supersede ch q).chan ch = { s.chan ch with prog := { (s.chan ch).prog with held := none } } := by
  unfold State.supersede
  cases h : (s.chan ch).prog.held with
  | none => dsimp only; rw [← h]
  | some o => dsimp only; rw [hand_chan, chan_modProg]

theorem supersede_none (h : (s.chan ch).prog.held = none) (q : Program) : s.supersede ch q = s := by
  unfold State.supersede
  rw [h]

theorem supersede_reports {o : Program} (h : (s.chan ch).prog.held = some o) (q : Program) :
    s.Reports (s.supersede ch q) [(some ch, .programSuperseded o.generation q.generation)] := by
  unfold State.supersede
  rw [h]
  exact (hand_reports (s.modProg ch fun u => { u with held := none }) (some ch)
    (.programSuperseded o.generation q.generation)).copy rfl rfl rfl rfl

/-- The requests that the Event Unit makes when an event is handed over. -/
def Request.ofEvents : Request → Bool
  | .journalRecord | .journalMark | .journalReRead => true
  | _ => false

theorem request_other {x : Request} (h : x ≠ r) (s : State) : (s.request r).port.outstanding x = s.port.outstanding x := by
  rw [outstanding_request, beq_eq_false_iff_ne.2 h, Bool.or_false]

theorem requestRead_other {x : Request} (h : x ≠ r) (s : State) :
    (s.requestRead r).port.outstanding x = s.port.outstanding x := by
  unfold State.requestRead
  split
  · rfl
  · exact request_other h s

/-- What an event handed over makes outstanding is the Event Unit's own. -/
theorem hand_outstanding {x : Request} (h : x.ofEvents = false) (s : State) (c : Option Chan) (b : EventBody) :
    (s.hand c b).port.outstanding x = s.port.outstanding x := by
  have hmark : x ≠ .journalMark := fun e => by rw [e] at h; cases h
  have hrecord : x ≠ .journalRecord := fun e => by rw [e] at h; cases h
  have hread : x ≠ .journalReRead := fun e => by rw [e] at h; cases h
  have henqueue : ∀ e, (s.enqueue e).port.outstanding x = s.port.outstanding x := fun e => by
    unfold State.enqueue
    split
    · rfl
    · exact request_other hmark (s.modEvents _)
  have hnudged : ∀ v : State, v.journalNudged.port.outstanding x = v.port.outstanding x := fun v => by
    unfold State.journalNudged
    split
    · exact requestRead_other hread v
    · rfl
  have hnext : ∀ v : State, v.journalNext.port.outstanding x = v.port.outstanding x := fun v => by
    unfold State.journalNext
    split
    · split
      · unfold State.journalWrite
        split
        · rfl
        · exact request_other hrecord (v.modEvents _)
      · exact requestRead_other hread (v.modEvents _)
    · rfl
  unfold State.hand
  split
  · rw [hnext, hnudged, henqueue]
  · rfl

/-- R133: settled writeback depends on the Writeback Unit, the queue, and two requests. -/
theorem settled_congr (hq : (t.chan ch).capture.queue = (s.chan ch).capture.queue) (hw : (t.chan ch).wb = (s.chan ch).wb)
    (hb : t.port.outstanding (.recordBurst ch) = s.port.outstanding (.recordBurst ch))
    (hm : t.port.outstanding (.markWrite ch) = s.port.outstanding (.markWrite ch)) : t.settled ch = s.settled ch := by
  unfold State.settled
  dsimp only
  rw [hq, hw, hb, hm]

theorem supersede_settled (s : State) (ch : Chan) (q : Program) : (s.supersede ch q).settled ch = s.settled ch := by
  refine settled_congr (by rw [supersede_chan]) (by rw [supersede_chan]) ?_ ?_
  · unfold State.supersede
    split
    · rfl
    · exact hand_outstanding rfl (s.modProg ch _) _ _
  · unfold State.supersede
    split
    · rfl
    · exact hand_outstanding rfl (s.modProg ch _) _ _

/-- The end of another request's transaction leaves a request outstanding or not. -/
theorem freePort_outstanding (ha : s.Answering r w) {x : Request} (h : x ≠ r) :
    s.freePort.port.outstanding x = s.port.outstanding x := by
  have hflying : s.port.flying x = false := by
    unfold Port.flying
    rw [ha.flying, Option.any_some, ha.request, beq_eq_false_iff_ne.2 (Ne.symm h), Bool.false_and]
  unfold Port.outstanding
  rw [hflying]
  rfl

theorem startsRun_iff (p : ProgramUnit) :
    p.runState.startsRun = true ↔ p.runState = .idle ∨ p.runState = .halted ∨ p.runState = .failed := by
  cases p.runState <;> decide

/-- R72: the channel is polled unless it frames. -/
theorem polled_iff (c : Channel) : c.polled = true
    ↔ ¬(c.prog.runState = .running ∧ (c.sync.state = .check ∨ c.sync.state = .lock ∨ c.sync.state = .flywheel)) := by
  rw [polled_eq]
  simp only [Bool.not_eq_true', Bool.and_eq_false_iff, Bool.or_eq_false_iff, beq_eq_false_iff_ne,
    Classical.not_and_iff_not_or_not, not_or, ne_eq, and_assoc]

/-- R60, R84: a run start waits for settled writeback, and any other program for a boundary, unless it has CUT. -/
theorem appliesNow_iff (s : State) (ch : Chan) (q : Program) : s.appliesNow ch q = true
    ↔ ((∃ r, q = .run r) ∧ (s.chan ch).prog.runState.startsRun = true) ∧ s.settled ch = true
      ∨ ¬((∃ r, q = .run r) ∧ (s.chan ch).prog.runState.startsRun = true) ∧ (q.cut = true ∨ (s.chan ch).polled = true) := by
  unfold State.appliesNow
  dsimp only
  cases q with
  | halt g c => simp
  | run r => cases (s.chan ch).prog.runState.startsRun <;> simp

theorem decideProgram_now {q : Program} (h : (s.supersede ch q).appliesNow ch q = true) :
    s.decideProgram ch q = (s.supersede ch q).apply ch q := if_pos h

theorem decideProgram_later {q : Program} (h : ¬(s.supersede ch q).appliesNow ch q = true) :
    s.decideProgram ch q = (s.supersede ch q).modProg ch fun p => { p with held := some q } := if_neg h

/-- R78: a whole fetch ends the fetch and the row of torn ones. -/
def State.fetched (s : State) (ch : Chan) : State := (s.endFetch ch).modProg ch fun p => { p with tornCount := 0 }

theorem fetched_chan (s : State) (ch : Chan) :
    (s.fetched ch).chan ch = { s.chan ch with prog := { (s.chan ch).prog with fetch := none, tornCount := 0 } } := by
  unfold State.fetched State.endFetch
  rw [chan_modProg, chan_modProg]

theorem fetched_keeps (s : State) (ch : Chan) : KeepsBut ch s (s.fetched ch) :=
  (endFetch_keeps s ch).trans (modProg_keeps _ ch _)

/-- Settles O36: a fetch discarded, torn, refused or valid. -/
theorem fetchTail : Obligations.FetchTail := by
  intro ch bytes fixedPart f w s k ha hb hf hp c p t whole
  have hexec : exec c s = .next (s.freePort.tailDone ch bytes).settle.regrant := by
    have h := read_completes k ha rfl hb
    rw [succeeded_fetchTail ha.request] at h
    exact h
  have hf' : (s.freePort.chan ch).prog.fetch = some f := hf
  refine ⟨fun hd => ?discarded, fun hd hw hn => ?torn, fun q reason hd hw hq hr => ?refused, fun q hd hw hq => ?valid⟩
  case discarded =>
    rw [hexec, tailDone_idle hf' hd]
    rfl
  case torn =>
    have hn' : ((s.freePort.endFetch ch).chan ch).prog.tornCount ≠ 3 := by
      unfold State.endFetch
      rw [chan_modProg]
      exact hn
    rw [hexec, tailDone_torn hf' hp hd ((torn_iff f fixedPart bytes).2 hw), fetchTorn_counted f hn']
    rfl
  case refused =>
    have hdone : s.freePort.tailDone ch bytes = (s.freePort.fetched ch).reject ch q.generation reason := by
      rw [tailDone_whole hf' hp hd fun e => (torn_iff f fixedPart bytes).1 e hw, fetchWhole_refused hq hr]
      rfl
    obtain ⟨hkeeps, hchan, hreports, hwaits⟩ := reject_leaves (s.freePort.fetched ch) ch q.generation reason
    refine ⟨_, by rw [hexec, hdone], (fetched_keeps s.freePort ch).trans hkeeps, ?_, hreports.copy rfl rfl rfl rfl, hwaits⟩
    rw [hchan, fetched_chan]
    rfl
  case valid =>
    intro starts framing
    let v := s.freePort.fetched ch
    let u := v.supersede ch q
    have hv := fetched_chan s.freePort ch
    have hu : u.chan ch = { s.chan ch with prog := { p with fetch := none, tornCount := 0, held := none } } := by
      show (State.supersede v ch q).chan ch = _
      rw [supersede_chan, hv]
      rfl
    have hdone : s.freePort.tailDone ch bytes = v.decideProgram ch q := by
      rw [tailDone_whole hf' hp hd fun e => (torn_iff f fixedPart bytes).1 e hw, fetchWhole_valid hq]
      rfl
    have hsettled : u.settled ch = s.settled ch := by
      refine (supersede_settled v ch q).trans (settled_congr (by rw [hv]; rfl) (by rw [hv]; rfl) ?_ ?_)
      · exact freePort_outstanding ha (fun e => nomatch e)
      · exact freePort_outstanding ha (fun e => nomatch e)
    have hnow : u.appliesNow ch q = true
        ↔ starts ∧ s.settled ch = true ∨ ¬starts ∧ (q.cut = true ∨ ¬framing) := by
      rw [appliesNow_iff, startsRun_iff, polled_iff, hsettled, hu]
    refine ⟨u, (fetched_keeps s.freePort ch).trans (supersede_keeps v ch q), hu, fun hnone => ?_, fun o ho => ?_,
      fun h => ?_, fun h => ?_⟩
    · have hsame : u = v := supersede_none (by rw [hv]; exact hnone) q
      rw [hsame]
      rfl
    · exact (supersede_reports (s := v) (by rw [hv]; exact ho) q).copy rfl rfl rfl rfl
    · rw [hexec, hdone, decideProgram_now (hnow.2 h)]
    · have hlater : ¬u.appliesNow ch q = true := fun e => by
        rcases hnow.1 e with ⟨hs, hset⟩ | ⟨hs, hcut⟩
        · rcases h with ⟨_, hf⟩ | ⟨hs', _⟩
          · rw [hset] at hf; cases hf
          · exact hs' hs
        · rcases h with ⟨hs', _⟩ | ⟨_, hc, hfr⟩
          · exact hs hs'
          · exact hcut.elim (fun e => by rw [hc] at e; cases e) fun e => e hfr
      rw [hexec, hdone, decideProgram_later hlater]

/-! ## PROGRAM_TORN -/

theorem exec_programTorn_due (h : s.tornDue ch (.okay bytes) = true) :
    exec (.programTorn ch (.okay bytes)) s = exec (.programFetchTailComplete ch (.okay bytes)) s := if_pos h

theorem exec_programTorn_other (h : ¬s.tornDue ch (.okay bytes) = true) :
    exec (.programTorn ch (.okay bytes)) s = .next s := if_neg h

/-- Settles O37: the fourth torn fetch in a row, under its own name. -/
theorem programTorn : Obligations.ProgramTorn := by
  intro ch bytes w s k
  refine ⟨fun f fixedPart ha hb hf hp hd hn hw => ?fourth, fun h => ?other⟩
  case fourth =>
    have htorn := (torn_iff f fixedPart bytes).2 hw
    have hdue : s.tornDue ch (.okay bytes) = true := by
      unfold State.tornDue
      dsimp only
      rw [hd, hn, hf, Option.any_some, hp, Option.any_some, htorn]
      rfl
    have hexec := read_completes k ha rfl hb
    rw [succeeded_fetchTail ha.request, tailDone_torn (s := s.freePort) hf hp hd htorn] at hexec
    have hn' : ((s.freePort.endFetch ch).chan ch).prog.tornCount = 3 := by
      unfold State.endFetch
      rw [chan_modProg]
      exact hn
    refine ⟨(s.freePort.endFetch ch).fetchTorn ch f, ?_, (exec_programTorn_due hdue).symm,
      (endFetch_keeps s.freePort ch).trans (fetchTorn_keeps _ ch f), ?_, ?_⟩
    · rw [exec_programTorn_due hdue]
      exact hexec
    · rw [fetchTorn_fourth f hn', hand_chan, chan_modProg, chan_count]
      unfold State.endFetch
      rw [chan_modProg]
      rfl
    · exact (fetchTorn_fourth_reports f hn').copy rfl rfl rfl rfl
  case other =>
    refine exec_programTorn_other fun hdue => ?_
    unfold State.tornDue at hdue
    simp only [Bool.and_eq_true, beq_iff_eq] at hdue
    obtain ⟨⟨hd, hn⟩, hany⟩ := hdue
    rcases h with h | h | h
    · exact h hn
    · exact h hd
    · rw [h] at hany; cases hany

end Sys2Proof.Machine
end

section
/-! PROOFS. The contents of a program (R52, R53, R205): the fields of its two reads, and the first test it fails. -/

namespace Sys2Proof.Machine

/-! ## The first test that fails -/

open Classical in
/-- R52, R164: the reason of the first test that fails, another when none fails. -/
noncomputable def firstFailure {α : Type} (none : α) : List (Prop × α) → α
  | [] => none
  | test :: rest => if test.1 then test.2 else firstFailure none rest

theorem firstFailure_eq {α : Type} {none : α} {tests : List (Prop × α)} {k : Nat} {t : Prop × α}
    (hk : tests[k]? = some t) (ht : t.1)
    (hbefore : ∀ (j : Nat) (e : Prop × α), j < k → tests[j]? = some e → ¬e.1) :
    firstFailure none tests = t.2 := by
  induction tests generalizing k with
  | nil => cases hk
  | cons e tests ih =>
    cases k with
    | zero =>
      cases hk
      exact if_pos ht
    | succ k =>
      exact (if_neg (hbefore 0 e (Nat.succ_pos k) rfl)).trans
        (ih hk fun j e hj he => hbefore (j + 1) e (Nat.succ_lt_succ hj) he)

theorem firstFailure_none {α : Type} {none : α} {tests : List (Prop × α)} (h : ∀ t, t ∈ tests → ¬t.1) :
    firstFailure none tests = none := by
  induction tests with
  | nil => rfl
  | cons e tests ih =>
    exact (if_neg (h e List.mem_cons_self)).trans (ih fun t ht => h t (List.mem_cons_of_mem e ht))

/-- One test of the validation is one test of the table. -/
theorem ite_eq_firstFailure {α : Type} {none : α} {a P : Prop} [Decidable a] {reason rest : α} {tests : List (Prop × α)}
    (h : a ↔ P) (hrest : rest = firstFailure none tests) :
    (if a then reason else rest) = firstFailure none ((P, reason) :: tests) := by
  by_cases ha : a
  · exact (if_pos ha).trans (if_pos (h.1 ha)).symm
  · exact (if_neg ha).trans (hrest.trans (if_neg fun e => ha (h.2 e)).symm)

/-- R53: tests 2 to 13, in the order of the table. -/
def RunProgram.tests (p : RunProgram) : List (Prop × RejectReason) :=
  let m := (List.range p.syncLength).countP fun i => p.syncMask.getLsbD i
  [(p.syncLength < 8 ∨ 64 < p.syncLength, .syncLength),
    (m < 8, .syncMask),
    (p.frameLength < p.syncLength + 8 ∨ 65536 < p.frameLength, .frameLength),
    ((7 < p.searchTol ∨ m < 4 * p.searchTol) ∨ (7 < p.checkTol ∨ m < 4 * p.checkTol)
      ∨ (7 < p.lockTol ∨ m < 4 * p.lockTol), .tolerance),
    (p.checkCount = 0 ∨ 15 < p.checkCount, .checkCount),
    (15 < p.flywheelLimit, .flywheelLimit),
    (p.slipWindow ≠ 0 ∧ p.slipWindow ≠ 1, .slip),
    (p.clockTimeoutUs = 0, .clockTimeout),
    (p.windowCount = 0 ∨ 8 < p.windowCount, .windowCount),
    (Disordered p.windows, .windowOrder),
    (p.OutOfBounds, .windowBounds),
    (p.TooLarge, .payloadSize)]

/-- The validation goes through the tests of the table. -/
theorem RunProgram.validate_eq (p : RunProgram) : p.validate = firstFailure .none p.tests := by
  have htolerance : [p.searchTol, p.checkTol, p.lockTol].any (fun t =>
        7 < t || maskedCount p.syncLength p.syncMask < 4 * t) = true
      ↔ (7 < p.searchTol ∨ maskedCount p.syncLength p.syncMask < 4 * p.searchTol)
        ∨ (7 < p.checkTol ∨ maskedCount p.syncLength p.syncMask < 4 * p.checkTol)
        ∨ (7 < p.lockTol ∨ maskedCount p.syncLength p.syncMask < 4 * p.lockTol) := by simp
  have hslip : 1 < p.slipWindow ↔ p.slipWindow ≠ 0 ∧ p.slipWindow ≠ 1 := by omega
  have horder : (!windowsInOrder p.windows) = true ↔ Disordered p.windows := by
    rw [Bool.not_eq_true', windowsInOrder_eq_false_iff]
  unfold RunProgram.validate RunProgram.tests
  rw [← maskedCount_eq]
  exact ite_eq_firstFailure .rfl <| ite_eq_firstFailure .rfl <| ite_eq_firstFailure .rfl <|
    ite_eq_firstFailure htolerance <| ite_eq_firstFailure .rfl <| ite_eq_firstFailure .rfl <|
    ite_eq_firstFailure hslip <| ite_eq_firstFailure .rfl <| ite_eq_firstFailure .rfl <|
    ite_eq_firstFailure horder <| ite_eq_firstFailure p.outOfBounds_iff_any.symm <| ite_eq_firstFailure .rfl rfl

/-! ## Where the fields lie -/

theorem fieldAt_lt (bytes : List Byte) (offset size : Nat) : fieldAt bytes offset size < 256 ^ size := by
  induction size generalizing offset with
  | zero => exact Nat.one_pos
  | succ size ih =>
    have hb := (byteAt bytes offset).isLt
    have hrest := ih (offset + 1)
    unfold fieldAt
    rw [Nat.pow_succ]
    omega

/-- A four-byte field as a word. -/
theorem wordAt_toNat (bytes : List Byte) (offset : Nat) : (wordAt bytes offset).toNat = fieldAt bytes offset 4 := by
  unfold wordAt
  rw [BitVec.toNat_ofNat]
  exact Nat.mod_eq_of_lt (fieldAt_lt bytes offset 4)

theorem parseWindows_length (bytes : List Byte) (offset count : Nat) :
    (parseWindows bytes offset count).length = count := by
  induction count generalizing offset with
  | zero => rfl
  | succ count ih => unfold parseWindows; rw [List.length_cons, ih]

/-- R205: a window of the list. -/
theorem parseWindows_get {bytes : List Byte} {offset count k : Nat} {w : Window}
    (h : (parseWindows bytes offset count)[k]? = some w) :
    w = ⟨fieldAt bytes (offset + 8 * k) 4, fieldAt bytes (offset + 8 * k + 4) 4⟩ := by
  induction count generalizing offset k with
  | zero => cases h
  | succ count ih =>
    unfold parseWindows at h
    cases k with
    | zero => exact (Option.some.inj h).symm
    | succ k =>
      rw [List.getElem?_cons_succ] at h
      rw [ih h, show offset + 8 + 8 * k = offset + 8 * (k + 1) by omega]

theorem parseProgram_halt {fixedPart bytes : List Byte} (h : (byteAt fixedPart 4).toNat = 2) :
    parseProgram fixedPart bytes = (.halt (wordAt fixedPart 0) ((byteAt fixedPart 5).getLsbD 0), .none) := if_pos h

theorem parseProgram_run {fixedPart bytes : List Byte} (h : (byteAt fixedPart 4).toNat ≠ 2) :
    parseProgram fixedPart bytes = (.run (RunProgram.parse fixedPart bytes),
      if (byteAt fixedPart 4).toNat = 1 then (RunProgram.parse fixedPart bytes).validate else .badKind) := if_neg h

/-- Settles O38: the kinds of program, the table of tests, and the fields. -/
theorem programContents : Obligations.ProgramContents := by
  intro fixedPart bytes kind flag p m limit tests
  have htests : tests = p.tests := rfl
  refine ⟨parseProgram_halt, fun h1 h2 => ?_, fun h1 => ?_, fun k t hk ht hb => ?_, fun h => ?_, rfl, rfl, rfl, rfl, rfl, rfl,
    rfl, rfl, rfl, rfl, rfl, (wordAt_toNat fixedPart 24).symm, rfl, rfl, rfl, rfl, rfl, rfl, rfl, rfl, rfl,
    parseWindows_length bytes 0 _, fun k w hw => ?_⟩
  · rw [parseProgram_run h2, if_neg h1]
  · rw [parseProgram_run (by rw [show (byteAt fixedPart 4).toNat = 1 from h1]; decide), if_pos h1]
  · rw [p.validate_eq, ← htests, firstFailure_eq hk ht hb]
  · rw [p.validate_eq, ← htests, firstFailure_none h]
  · have hwindow := parseWindows_get (offset := 0) hw
    rw [Nat.zero_add] at hwindow
    rw [hwindow, wordAt_toNat, wordAt_toNat]
    exact ⟨rfl, rfl⟩

end Sys2Proof.Machine
end

section
/-! PROOFS. The start of a run (R54, R61, R82, R88), and what the monitor does once a program has replaced the run settings (R31,
R40, R41). -/

namespace Sys2Proof.Machine

variable {s t u : State} {ch : Chan} {r : RunProgram} {p : Chan → Prop}

/-! ## Views of the run settings -/

theorem timeoutTicks_eq (p : ProgramUnit) : p.timeoutTicks = 10 * p.clockTimeout := Nat.mul_comm ..

theorem input_of_none {p : ProgramUnit} (h : p.settings = none) : p.input = .line := by
  unfold ProgramUnit.input
  rw [h]

theorem input_of_some {p : ProgramUnit} (h : p.settings = some r) : p.input = if r.inputTest then .test else .line := by
  unfold ProgramUnit.input
  rw [h]

theorem clockTimeout_of_none {p : ProgramUnit} (h : p.settings = none) : p.clockTimeout = 255 := by
  unfold ProgramUnit.clockTimeout
  rw [h]

theorem clockTimeout_of_some {p : ProgramUnit} (h : p.settings = some r) : p.clockTimeout = r.clockTimeoutUs := by
  unfold ProgramUnit.clockTimeout
  rw [h]

theorem adopted_of_none {p : ProgramUnit} (h : p.inForce = none) : p.adopted = 0 := by
  unfold ProgramUnit.adopted
  rw [h]

theorem adopted_of_some {p : ProgramUnit} {q : Program} (h : p.inForce = some q) : p.adopted = q.generation := by
  unfold ProgramUnit.adopted
  rw [h]
  cases q <;> rfl

/-! ## Reports, one operation after another -/

theorem Keeps.reports {l m : List (Option Chan × EventBody)} (k : Keeps p s t) (h : s.Reports t l) (h' : t.Reports u m) :
    s.Reports u (l ++ m) := h.trans h' k.device k.timebase

theorem adopt_reports (s : State) (ch : Chan) (q : Program) (c : ChangeClass) :
    s.Reports (s.adopt ch q c) [(some ch, .programAdopted c q.generation)] :=
  (hand_reports ((s.modProg ch fun u => { u with
    inForce := some q
    settings := match q with
      | .run r => some r
      | .halt _ _ => u.settings }).request (.generationWrite ch)) (some ch)
    (.programAdopted c q.generation)).copy rfl rfl rfl rfl

theorem adopt_waits (s : State) (ch : Chan) (q : Program) (c : ChangeClass) :
    (s.adopt ch q c).port.waiting (.generationWrite ch) = true :=
  (hand_keeps _ _ _).waiting _ (request_waits _ _)

theorem restartMonitor_reports (s : State) (ch : Chan) : s.Reports (s.restartMonitor ch)
    ((if (s.chan ch).monitor.state = .quiet then [] else [.activity .quiet]).map fun e => (some ch, e)) := by
  unfold State.restartMonitor
  dsimp only
  split
  · exact reports_none rfl
  · exact (activityEntered_reports (s.modMonitor ch (·.restart)) ch .quiet).copy rfl rfl rfl rfl

theorem restartMonitor_waits (h : (s.chan ch).monitor.state ≠ .quiet) :
    (s.restartMonitor ch).port.waiting (.statusWrite ch) = true := by
  unfold State.restartMonitor
  dsimp only
  rw [if_neg h]
  exact statusChanged_waits _ ch

/-! ## The monitor's part of an application -/

theorem monitorApply_switched {before : Input} (h : (s.chan ch).prog.input ≠ before) :
    s.monitorApply ch before = s.restartMonitor ch := if_pos h

theorem monitorApply_reached {before : Input} (h : (s.chan ch).prog.input = before)
    (hr : (s.chan ch).gapReached = true) : s.monitorApply ch before = s.enterNoclock ch :=
  (if_neg fun e => e h).trans (if_pos hr)

theorem monitorApply_same {before : Input} (h : (s.chan ch).prog.input = before)
    (hr : ¬(s.chan ch).gapReached = true) : s.monitorApply ch before = s :=
  (if_neg fun e => e h).trans (if_neg hr)

theorem restartMonitor_prog (s : State) (ch : Chan) : ((s.restartMonitor ch).chan ch).prog = (s.chan ch).prog := by
  rw [restartMonitor_chan]

theorem enterNoclock_prog (s : State) (ch : Chan) : ((s.enterNoclock ch).chan ch).prog = (s.chan ch).prog := by
  rw [enterNoclock_chan]
  exact (Channel.truncated_blocks ch _).1

theorem monitorApply_prog (s : State) (ch : Chan) (before : Input) :
    ((s.monitorApply ch before).chan ch).prog = (s.chan ch).prog := by
  unfold State.monitorApply
  split
  · exact restartMonitor_prog s ch
  · split
    · exact enterNoclock_prog s ch
    · rfl

/-- R37, R40: the gap timer stands at or beyond the timeout of the run settings. -/
theorem gapReached_iff {c : Channel} (h : c.prog.settings = some r) : c.gapReached = true
    ↔ c.monitor.evaluating = true ∧ c.monitor.state ≠ .noclock
      ∧ ∃ g, c.monitor.gap = some g ∧ 10 * r.clockTimeoutUs ≤ g := by
  unfold Channel.gapReached
  rw [Bool.and_eq_true, Bool.and_eq_true, bne_iff_ne, and_assoc, timeoutTicks_eq, clockTimeout_of_some h]
  refine and_congr_right fun _ => and_congr_right fun _ => ?_
  cases c.monitor.gap with
  | none => simp
  | some g => simp

/-! ## The start of a run -/

/-- R61: a channel in which a run has begun and its program is in force. -/
def Channel.runBegun (c : Channel) (r : RunProgram) : Channel :=
  { c with
    prog := { c.prog.startRun with inForce := some (.run r), settings := some r }
    wb := c.wb.startRun c.prog.latestRelease
    capture := .reset }

/-- R61: the state in which a run has begun, before the monitor looks at its input. -/
def State.runAdopted (s : State) (ch : Chan) (r : RunProgram) : State := (s.beginRun ch).adopt ch (.run r) .start

/-- R61: the state in which the monitor has looked at its input. -/
def State.runMonitored (s : State) (ch : Chan) (r : RunProgram) : State :=
  (s.runAdopted ch r).monitorApply ch (s.chan ch).prog.input

theorem runAdopted_chan (s : State) (ch : Chan) (r : RunProgram) : (s.runAdopted ch r).chan ch = (s.chan ch).runBegun r := by
  unfold State.runAdopted State.beginRun
  rw [adopt_chan, chan_modChan]
  rfl

theorem runAdopted_keeps (s : State) (ch : Chan) (r : RunProgram) : KeepsBut ch s (s.runAdopted ch r) :=
  (beginRun_keeps s ch).trans (adopt_keeps _ ch _ _)

theorem runAdopted_reports (s : State) (ch : Chan) (r : RunProgram) :
    s.Reports (s.runAdopted ch r) [(some ch, .programAdopted .start r.generation)] :=
  (adopt_reports (s.beginRun ch) ch (.run r) .start).copy rfl rfl rfl rfl

/-- The channel settings in force at the start of a run are the new program's. -/
theorem runAdopted_settings (s : State) (ch : Chan) (r : RunProgram) :
    ((s.runAdopted ch r).chan ch).prog.settings = some r := by rw [runAdopted_chan]; rfl

theorem runStart_eq (s : State) (ch : Chan) (r : RunProgram) : s.runStart ch r
    = (((((s.runMonitored ch r).modSync ch (·.runStart r.invert r.startOnStrt)).setRunState ch
      (if r.startOnStrt then .armed else .running))).channelState ch .program).request (.markWrite ch) := rfl

theorem runStart_chan (s : State) (ch : Chan) (r : RunProgram) : (s.runStart ch r).chan ch
    = { (s.runMonitored ch r).chan ch with
        sync := ((s.runMonitored ch r).chan ch).sync.runStart r.invert r.startOnStrt
        prog := { ((s.runMonitored ch r).chan ch).prog with
          runState := if r.startOnStrt then .armed else .running } } := by
  rw [runStart_eq, request_chan]
  unfold State.channelState
  rw [statusChanged_chan, hand_chan]
  unfold State.setRunState
  rw [chan_modProg, chan_modSync]

theorem runMonitored_prog (s : State) (ch : Chan) (r : RunProgram) :
    ((s.runMonitored ch r).chan ch).prog = ((s.chan ch).runBegun r).prog := by
  unfold State.runMonitored
  rw [monitorApply_prog, runAdopted_chan]

/-- R61, R69: a run start is reported behind what the monitor reports. -/
theorem runStart_reports {mid : List EventBody}
    (h : (s.runAdopted ch r).Reports (s.runMonitored ch r) (mid.map fun e => (some ch, e))) : s.Reports (s.runStart ch r)
      ((some ch, .programAdopted .start r.generation) :: mid.map (fun e => (some ch, e))
        ++ [(some ch, .channelState (if r.startOnStrt then .armed else .running) ((s.chan ch).prog.runIndex + 1)
          .program)]) := by
  have keeps := (runAdopted_keeps s ch r).trans (monitorApply_keeps (s.runAdopted ch r) ch (s.chan ch).prog.input)
  have hstate := channelState_reports (((s.runMonitored ch r).modSync ch (·.runStart r.invert r.startOnStrt)).setRunState ch
    (if r.startOnStrt then .armed else .running)) ch .program
  unfold State.setRunState at hstate
  rw [chan_modProg, chan_modSync] at hstate
  dsimp only at hstate
  rw [runMonitored_prog] at hstate
  have hfirst := (runAdopted_keeps s ch r).reports (runAdopted_reports s ch r) h
  have hall := keeps.reports hfirst (hstate.copy (s' := s.runMonitored ch r) rfl rfl rfl rfl)
  rw [runStart_eq]
  exact hall.copy rfl rfl rfl rfl

theorem runStart_waits (s : State) (ch : Chan) (r : RunProgram) :
    (s.runStart ch r).port.waiting (.generationWrite ch) = true
      ∧ (s.runStart ch r).port.waiting (.statusWrite ch) = true
      ∧ (s.runStart ch r).port.waiting (.markWrite ch) = true := by
  rw [runStart_eq]
  refine ⟨?_, ?_, request_waits _ _⟩
  · have hadopt : (s.runAdopted ch r).port.waiting (.generationWrite ch) = true := adopt_waits _ ch _ _
    have hmonitor : (s.runMonitored ch r).port.waiting (.generationWrite ch) = true :=
      (monitorApply_keeps (s.runAdopted ch r) ch (s.chan ch).prog.input).waiting _ hadopt
    exact (request_keeps _ _).waiting _ ((channelState_keeps _ ch .program).waiting _ hmonitor)
  · exact (request_keeps _ _).waiting _ (statusChanged_waits _ ch)

theorem areaUsable_iff (p : ProgramUnit) : p.areaUsable = true ↔ p.latestAreaBase.toNat < 2 ^ 48
    ∧ p.latestAreaBase.toNat % 4096 = 0 ∧ ∃ k, 14 ≤ k ∧ k ≤ 24 ∧ p.latestAreaSize.toNat = 2 ^ k := by
  unfold ProgramUnit.areaUsable
  rw [Bool.and_eq_true, addressUsable_iff, powerOfTwoIn_iff, and_assoc]

/-- R60, R82: a RUN program on a channel in no run. -/
theorem apply_start (h : (s.chan ch).prog.runState = .idle ∨ (s.chan ch).prog.runState = .halted
    ∨ (s.chan ch).prog.runState = .failed) : s.apply ch (.run r)
      = if (s.chan ch).prog.areaUsable then s.runStart ch r else s.reject ch r.generation .area := by
  unfold State.apply
  rcases h with h | h | h <;> rw [h]

/-- Settles O40: the refusal, or the start of a run with what the monitor makes of its input. -/
theorem runStart : Obligations.RunStart := by
  refine ⟨fun p r g cut => ⟨timeoutTicks_eq p, fun h => ⟨input_of_none h, clockTimeout_of_none h⟩,
    fun h => ⟨input_of_some h, clockTimeout_of_some h⟩, adopted_of_none, adopted_of_some, adopted_of_some, rfl, rfl, rfl, rfl⟩, ?_⟩
  intro ch r s p u usable m st switched reached begun hstate
  have hu : u = if p.areaUsable then s.runStart ch r else s.reject ch r.generation .area := apply_start hstate
  have husable : p.areaUsable = true ↔ usable := areaUsable_iff p
  refine ⟨apply_keeps s ch (.run r), ?waits, fun hn => ?refused, fun hy => ?started⟩
  case waits =>
    rw [hu]
    split
    · exact (runStart_waits s ch r).1
    · exact (reject_leaves s ch r.generation .area).2.2.2
  case refused =>
    rw [hu, if_neg fun e => hn (husable.1 e)]
    obtain ⟨_, hchan, hreports, _⟩ := reject_leaves s ch r.generation .area
    exact ⟨hchan, hreports⟩
  case started =>
    have hrun : u = s.runStart ch r := by rw [hu, if_pos (husable.2 hy)]
    have hchan := runStart_chan s ch r
    have hprog := runMonitored_prog s ch r
    have hadopted := runAdopted_chan s ch r
    have hinput : ((s.runAdopted ch r).chan ch).prog.input = if r.inputTest then .test else .line :=
      input_of_some (runAdopted_settings s ch r)
    have hreached : ((s.runAdopted ch r).chan ch).gapReached = true ↔ reached := by
      rw [gapReached_iff (runAdopted_settings s ch r), hadopted]
      rfl
    obtain ⟨_, hstatus, hmark⟩ := runStart_waits s ch r
    -- what the monitor leaves of the Writeback Unit and the Capture Assembler of the run
    have units : ((s.runMonitored ch r).chan ch).wb = ((s.chan ch).runBegun r).wb
        ∧ ((s.runMonitored ch r).chan ch).capture = ((s.chan ch).runBegun r).capture := by
      unfold State.runMonitored State.monitorApply
      split
      · rw [restartMonitor_chan, hadopted]; exact ⟨rfl, rfl⟩
      · split
        · rw [enterNoclock_chan, Channel.truncated_empty (by rw [hadopted]; rfl), hadopted]; exact ⟨rfl, rfl⟩
        · rw [hadopted]; exact ⟨rfl, rfl⟩
    have reports : ∀ mid : List EventBody,
        (s.runAdopted ch r).Reports (s.runMonitored ch r) (mid.map fun e => (some ch, e)) → begun mid := fun mid h => by
      show s.Reports u _
      rw [hrun]
      exact runStart_reports h
    rw [hrun, hchan]
    refine ⟨by rw [hprog]; rfl, units.1, units.2, rfl, fun hs => ?switched, fun hs hr => ?same, fun hs hr => ?noclock,
      hstatus, hmark⟩
    case switched =>
      have hm : s.runMonitored ch r = (s.runAdopted ch r).restartMonitor ch :=
        monitorApply_switched fun e => hs (e.symm.trans hinput)
      have hreports := restartMonitor_reports (s.runAdopted ch r) ch
      rw [hadopted] at hreports
      refine ⟨by rw [hm, restartMonitor_chan, hadopted]; rfl, ?_, reports _ (by rw [hm]; exact hreports)⟩
      rw [hm, restartMonitor_chan, hadopted]
      by_cases hq : m.state = .quiet
      · rw [if_pos hq]; exact congrArg (fun c => ({ st with counters := c } : Statistics)) (if_pos hq)
      · rw [if_neg hq]; exact congrArg (fun c => ({ st with counters := c } : Statistics)) (if_neg hq)
    case same =>
      have hm : s.runMonitored ch r = s.runAdopted ch r :=
        monitorApply_same (hinput.trans (Classical.not_not.1 hs).symm) fun e => hr (hreached.1 e)
      rw [hm, hadopted]
      exact ⟨rfl, rfl, reports [] (by rw [hm]; exact reports_none rfl)⟩
    case noclock =>
      have hm : s.runMonitored ch r = (s.runAdopted ch r).enterNoclock ch :=
        monitorApply_reached (hinput.trans (Classical.not_not.1 hs).symm) (hreached.2 hr)
      have hreports := enterNoclock_reports (s.runAdopted ch r) ch
      rw [hadopted] at hreports
      refine ⟨?_, fun hoff => ⟨reports [.activity .noclock] ?_, ?_⟩⟩
      · rw [hm, enterNoclock_chan, Channel.truncated_empty (by rw [hadopted]; rfl), hadopted]; rfl
      · have hunlocked : ¬(((s.chan ch).runBegun r).sync.state = .lock ∨ ((s.chan ch).runBegun r).sync.state = .flywheel) := by
          show ¬((s.chan ch).sync.state = .lock ∨ (s.chan ch).sync.state = .flywheel)
          rw [hoff]; decide
        rw [if_neg hunlocked] at hreports
        rw [hm]
        exact hreports
      · rw [hm, enterNoclock_chan, Channel.truncated_empty (by rw [hadopted]; rfl), hadopted]
        show ({ st with counters := Counters.lostFrom _ (s.chan ch).sync } : Statistics) = _
        unfold Counters.lostFrom
        rw [if_neg (by rw [hoff]; decide)]
        rfl

end Sys2Proof.Machine
end

section
/-! PROOFS. The journal (R136 to R147): events handed over, placements, and the completions of the Event Unit's requests. -/

namespace Sys2Proof.Machine

variable {s t u : State} {ch : Chan} {r : Request} {w : Transaction} {bytes : List Byte}

/-! ## Completions of writes, as commands -/

theorem write_completes (ha : s.Answering r w) (hw : r.isWrite = true) (bytes : List Byte) :
    exec (r.success bytes) s = .next (((s.freePort.placeBytes w).succeeded w []).settle).regrant := by
  rw [exec_success, if_pos hw, respond_written ha hw, complete_write ha]

theorem write_fails (ha : s.Answering r w) :
    exec r.failure s = .next (((s.freePort.spoilBytes w).failed w).settle).regrant := by
  rw [exec_failure, respond_error ha, complete_write_error ha]

/-! ## Placements -/

/-- R151: a counter that is raised stays at its maximum. -/
theorem saturate_toNat {w : Nat} (c : BitVec w) (n : Nat) : (saturate c n).toNat = min (c.toNat + n) (2 ^ w - 1) := by
  have hpos : 0 < 2 ^ w := Nat.two_pow_pos w
  exact (BitVec.toNat_ofNat _ _).trans (Nat.mod_eq_of_lt (by omega))

theorem takesEvents_iff (d : DeviceState) : d.takesEvents = true ↔ d = .running ∨ d = .draining ∨ d = .stopped := by
  cases d <;> simp [DeviceState.takesEvents]

theorem hasWork_iff (e : EventUnit) : e.hasWork = true ↔ e.queue ≠ [] ∨ e.droppedCount ≠ 0 := by
  unfold EventUnit.hasWork
  rw [Bool.or_eq_true, decide_eq_true_iff, decide_eq_true_iff]

/-- R137, R142: the record that the next placement fixes for an event. -/
def State.nextRecord (s : State) (event : Event) (fromQueue : Bool) : JournalRecord where
  event := event
  sequence := s.events.sequence
  offset := s.events.writeMark.toNat % s.params.journalSize.toNat
  fromQueue := fromQueue
  secondPart := false

theorem journalWrite_of_next {event : Event} {fromQueue : Bool}
    (h : s.events.nextEvent s.timebase = some (event, fromQueue)) : s.journalWrite
      = ({ s with events := { s.events with
          droppedCount := 0, placement := .writing (s.nextRecord event fromQueue) } } : State).request .journalRecord := by
  unfold State.journalWrite
  rw [h]
  rfl

/-- R142: an overflow goes first. -/
theorem nextEvent_overflow {e : EventUnit} (h : e.droppedCount ≠ 0) (now : Dword) :
    e.nextEvent now = some (⟨none, .journalOverflow e.droppedCount, now⟩, false) := if_neg h

theorem nextEvent_head {e : EventUnit} {event : Event} {rest : List Event} (h : e.droppedCount = 0)
    (hq : e.queue = event :: rest) (now : Dword) : e.nextEvent now = some (event, true) := by
  unfold EventUnit.nextEvent
  rw [if_pos h, hq]
  rfl

/-- With work to do, there is an event to place next. -/
theorem nextEvent_some {e : EventUnit} (h : e.hasWork = true) (now : Dword) : ∃ x, e.nextEvent now = some x := by
  by_cases hd : e.droppedCount = 0
  · cases hq : e.queue with
    | nil => exact absurd hd (((hasWork_iff e).1 h).resolve_left fun hn => hn hq)
    | cons event rest => exact ⟨_, nextEvent_head hd hq now⟩
  · exact ⟨_, nextEvent_overflow hd now⟩

theorem journalNext_writes (hp : s.events.placement = .idle) (hw : s.events.hasWork = true) (hr : 32 ≤ s.journalRoom) :
    s.journalNext = s.journalWrite := (if_pos ⟨hp, hw⟩).trans (if_pos hr)

theorem journalNext_short (hp : s.events.placement = .idle) (hw : s.events.hasWork = true) (hr : ¬32 ≤ s.journalRoom) :
    s.journalNext = (s.modEvents fun e => { e with placement := .reread }).requestRead .journalReRead :=
  (if_pos ⟨hp, hw⟩).trans (if_neg hr)

/-- A requested read changes the port only. -/
theorem requestRead_eq (s : State) (r : Request) : s.requestRead r = { s with port := (s.requestRead r).port } := by
  unfold State.requestRead
  split <;> rfl

/-- Settles O51, along the branches of the placement. -/
theorem journalPlacement : Obligations.JournalPlacement := by
  intro s e room record
  refine ⟨fun h => if_neg fun hc => ?nothing, fun hp hd hr event rest hq => ?queued, fun hp hd hr => ?overflow,
    fun hp hw hr => ?short⟩
  case nothing =>
    rcases h with h | ⟨hq, hd⟩
    · exact h hc.1
    · exact ((hasWork_iff s.events).1 hc.2).elim (fun h => h hq) fun h => h hd
  case queued =>
    have hwork : s.events.hasWork = true := (hasWork_iff s.events).2 (.inl (by rw [hq]; exact List.cons_ne_nil _ _))
    have hsame : s.events = { s.events with droppedCount := 0 } := congrArg (fun d => { s.events with droppedCount := d }) hd
    rw [journalNext_writes hp hwork hr, journalWrite_of_next (nextEvent_head hd hq _)]
    exact congrArg (fun x : EventUnit => ({ s with events := { x with placement := .writing (record event true) } }
      : State).request .journalRecord) hsame.symm
  case overflow =>
    rw [journalNext_writes hp ((hasWork_iff s.events).2 (.inr hd)) hr, journalWrite_of_next (nextEvent_overflow hd _)]
    rfl
  case short =>
    refine ⟨_, journalNext_short hp ((hasWork_iff s.events).2 hw) (Nat.not_le.2 hr), ?_, requestRead_outstanding _ _⟩
    exact requestRead_eq _ _

/-! ## Events handed over -/

theorem hand_ignored (h : ¬s.device.takesEvents = true) (c : Option Chan) (b : EventBody) : s.hand c b = s := if_neg h

theorem hand_taken (h : s.device.takesEvents = true) (c : Option Chan) (b : EventBody) :
    s.hand c b = ((s.enqueue ⟨c, b, s.timebase⟩).journalNudged).journalNext := if_pos h

/-- A record being placed: the event handed over only joins the queue, or is dropped. -/
theorem hand_events_busy (h : s.device.takesEvents = true) (c : Option Chan) (b : EventBody)
    (hp : (s.enqueue ⟨c, b, s.timebase⟩).events.placement ≠ .idle) :
    (s.hand c b).events = (s.enqueue ⟨c, b, s.timebase⟩).events := by
  rw [hand_taken h, journalNext_busy (by rw [journalNudged_events]; exact hp), journalNudged_events]

theorem hand_idle (h : s.device.takesEvents = true) (c : Option Chan) (b : EventBody)
    (hp : (s.enqueue ⟨c, b, s.timebase⟩).events.placement = .idle) :
    s.hand c b = (s.enqueue ⟨c, b, s.timebase⟩).journalNext := by
  rw [hand_taken h, journalNudged_open (by rw [hp]; exact fun e => nomatch e)]

theorem enqueue_joins (h : s.events.queue.length < 16) (e : Event) :
    s.enqueue e = s.modEvents fun x => { x with queue := x.queue ++ [e] } := if_pos h

theorem enqueue_drops (h : ¬s.events.queue.length < 16) (e : Event) : s.enqueue e = (s.modEvents fun x =>
    { x with droppedCount := saturate x.droppedCount 1, droppedTotal := saturate x.droppedTotal 1 }).request
      .journalMark := if_neg h

theorem enqueue_placement (s : State) (e : Event) : (s.enqueue e).events.placement = s.events.placement := by
  unfold State.enqueue
  split <;> rfl

/-- R136: a dropped event asks for a journal mark write. -/
theorem hand_drop_waits (h : s.device.takesEvents = true) (hq : ¬s.events.queue.length < 16) (c : Option Chan)
    (b : EventBody) : (s.hand c b).port.waiting .journalMark = true := by
  rw [hand_taken h]
  refine (journalNext_keeps _).waiting _ ((journalNudged_keeps _).waiting _ ?_)
  rw [enqueue_drops hq]
  exact request_waits _ _

/-- R138, R141: an event handed over while the placement is BLOCKED leaves a re-read outstanding. -/
theorem hand_blocked (h : s.device.takesEvents = true) (hp : s.events.placement = .blocked) (c : Option Chan)
    (b : EventBody) : (s.hand c b).port.outstanding .journalReRead = true := by
  have hb : (s.enqueue ⟨c, b, s.timebase⟩).events.placement = .blocked := (enqueue_placement _ _).trans hp
  rw [hand_taken h, journalNext_busy (by rw [journalNudged_events, hb]; exact fun e => nomatch e)]
  unfold State.journalNudged
  rw [if_pos hb]
  exact requestRead_outstanding _ _

/-- Settles O50. -/
theorem eventHandedOver : Obligations.EventHandedOver := by
  refine ⟨fun w n c => saturate_toNat c n, ?_⟩
  intro channel body s u e taken joined dropped
  have htaken : s.device.takesEvents = true ↔ taken := takesEvents_iff s.device
  have hplace := enqueue_placement s ⟨channel, body, s.timebase⟩
  refine ⟨fun h => hand_ignored (fun e => h (htaken.1 e)) _ _, hand_keeps _ _ _, fun h hq => ⟨fun hp => ?_, fun hp => ?_⟩,
    fun h hq => ⟨hand_drop_waits (htaken.2 h) (Nat.not_lt.2 hq) _ _, fun hp => ?_, fun hp => ?_⟩,
    fun h hp => hand_blocked (htaken.2 h) hp _ _⟩
  · exact (hand_events_busy (htaken.2 h) _ _ (by rw [hplace]; exact hp)).trans (by rw [enqueue_joins hq]; rfl)
  · exact (hand_idle (htaken.2 h) _ _ (by rw [hplace]; exact hp)).trans (by rw [enqueue_joins hq]; rfl)
  · exact (hand_events_busy (htaken.2 h) _ _ (by rw [hplace]; exact hp)).trans
      (by rw [enqueue_drops (Nat.not_lt.2 hq)]; rfl)
  · exact (hand_idle (htaken.2 h) _ _ (by rw [hplace]; exact hp)).trans
      (by rw [enqueue_drops (Nat.not_lt.2 hq)]; rfl)

/-! ## Record writes -/

theorem succeeded_journalRecord (h : w.request = .journalRecord) (s : State) (bytes : List Byte) :
    s.succeeded w bytes = s.journalRecordDone := by
  unfold State.succeeded
  rw [h]

theorem journalRecordDone_first {r : JournalRecord} (h : s.events.placement = .writing r)
    (hs : s.journalSplit r = true ∧ r.secondPart = false) : s.journalRecordDone
      = (s.modEvents fun e => { e with placement := .writing { r with secondPart := true } }).request .journalRecord := by
  unfold State.journalRecordDone
  rw [h]
  exact if_pos hs

theorem journalRecordDone_last {r : JournalRecord} (h : s.events.placement = .writing r)
    (hs : ¬(s.journalSplit r = true ∧ r.secondPart = false)) : s.journalRecordDone = s.journalAdvance r := by
  unfold State.journalRecordDone
  rw [h]
  exact if_neg hs

/-- Settles O52. -/
theorem journalRecordWritten : Obligations.JournalRecordWritten := by
  intro w r s ha hp placed first
  have hexec : exec (.journalRecordWriteComplete .okay) s = .next (placed.journalRecordDone.settle).regrant := by
    have h := write_completes ha rfl []
    rw [succeeded_journalRecord ha.request] at h
    exact h
  have hsplit : (placed.journalSplit r = true ∧ r.secondPart = false) ↔ first := by
    unfold State.journalSplit
    rw [decide_eq_true_iff]
    exact Iff.rfl
  refine ⟨fun h => ?_, fun h => ⟨(placed.modEvents fun e => { e with
      writeMark := e.writeMark + 32
      sequence := e.sequence + 1
      queue := if r.fromQueue then e.queue.tail else e.queue
      placement := .idle }).request .journalMark, ?_, rfl, request_waits _ _⟩⟩
  · rw [hexec, journalRecordDone_first (s := placed) hp (hsplit.2 h)]
    rfl
  · rw [hexec, journalRecordDone_last (s := placed) hp fun e => h (hsplit.1 e)]
    rfl

/-! ## Re-reads -/

theorem succeeded_journalReRead (h : w.request = .journalReRead) (s : State) (bytes : List Byte) :
    s.succeeded w bytes = (s.offerJournalRelease (wordAt bytes 0)).journalRecheck := by
  unfold State.succeeded
  rw [h]
  rfl

theorem failed_journalReRead (h : w.request = .journalReRead) (s : State) : s.failed w = s.journalRecheck := by
  unfold State.failed
  rw [h]
  rfl

theorem releaseAcceptable_iff (value accepted writeMark : Word) : releaseAcceptable value accepted writeMark = true
    ↔ (value - accepted).toNat ≤ (writeMark - accepted).toNat := decide_eq_true_iff

theorem offerJournalRelease_eq (s : State) (value : Word) : s.offerJournalRelease value
    = { s with events := (s.offerJournalRelease value).events, port := (s.offerJournalRelease value).port } := by
  unfold State.offerJournalRelease
  dsimp only
  split
  · split <;> rfl
  · split <;> rfl

/-- R139: what a journal release value does to the Event Unit. -/
theorem offerJournalRelease_events (s : State) (value : Word) : (s.offerJournalRelease value).events
    = if (value - s.events.acceptedRelease).toNat ≤ (s.events.writeMark - s.events.acceptedRelease).toNat then
        { s.events with acceptedRelease := value, lastBad := none }
      else if s.events.lastBad = some value then s.events
      else { s.events with badReleases := saturate s.events.badReleases 1, lastBad := some value } := by
  unfold State.offerJournalRelease
  simp only [releaseAcceptable_iff]
  split
  · split <;> rfl
  · split <;> rfl

/-- R139, R145: a value that changes what the mark write tells asks for one. -/
theorem offerJournalRelease_waits {value : Word}
    (h : if (value - s.events.acceptedRelease).toNat ≤ (s.events.writeMark - s.events.acceptedRelease).toNat then
      value ≠ s.events.acceptedRelease else s.events.lastBad ≠ some value) :
    (s.offerJournalRelease value).port.waiting .journalMark = true := by
  unfold State.offerJournalRelease
  simp only [releaseAcceptable_iff]
  split
  case isTrue ha =>
    rw [if_pos ha] at h
    rw [if_neg h]
    exact request_waits _ _
  case isFalse ha =>
    rw [if_neg ha] at h
    rw [if_neg h]
    exact request_waits _ _

theorem journalRecheck_idle (h : ¬(s.events.placement = .reread ∨ s.events.placement = .blocked)) :
    s.journalRecheck = s := if_neg h

theorem journalRecheck_short (h : s.events.placement = .reread ∨ s.events.placement = .blocked)
    (hr : ¬32 ≤ s.journalRoom) : s.journalRecheck = s.modEvents fun e => { e with placement := .blocked } :=
  (if_pos h).trans (if_neg hr)

theorem journalRecheck_room (h : s.events.placement = .reread ∨ s.events.placement = .blocked)
    (hr : 32 ≤ s.journalRoom) : s.journalRecheck = s.journalWrite := (if_pos h).trans (if_pos hr)

/-- A placement that finds room at a re-read is the one that would begin if none were under way. -/
theorem journalRecheck_next (h : s.events.placement = .reread ∨ s.events.placement = .blocked)
    (hr : 32 ≤ s.journalRoom) (hw : s.events.hasWork = true) : s.journalRecheck
      = ({ s with events := { s.events with placement := .idle } } : State).journalNext := by
  obtain ⟨⟨event, fromQueue⟩, hx⟩ := nextEvent_some hw s.timebase
  rw [journalRecheck_room h hr, journalNext_writes (s := { s with events := { s.events with placement := .idle } }) rfl hw hr,
    journalWrite_of_next hx, journalWrite_of_next (s := { s with events := { s.events with placement := .idle } }) hx]
  rfl

/-- Settles O53. -/
theorem journalReRead : Obligations.JournalReRead := by
  intro bytes w s k ha hb e value acceptable
  refine ⟨?error, ⟨s.freePort.offerJournalRelease value, ?value, offerJournalRelease_eq _ _,
    offerJournalRelease_events _ _, fun h => offerJournalRelease_waits (s := s.freePort) h⟩, ?recheck⟩
  case error =>
    have h := read_fails k ha rfl
    rw [failed_journalReRead ha.request] at h
    exact h
  case value =>
    have h := read_completes k ha rfl hb
    rw [succeeded_journalReRead ha.request] at h
    exact h
  case recheck =>
    intro t room waits
    refine ⟨journalRecheck_idle, fun h hr => journalRecheck_short h (Nat.not_le.2 hr), fun h hr => ?_⟩
    by_cases hw : t.events.hasWork = true
    · exact .inl (journalRecheck_next h hr hw)
    · rw [hasWork_iff, not_or, Classical.not_not, Classical.not_not] at hw
      exact .inr hw

/-! ## Mark writes -/

theorem succeeded_journalMark (h : w.request = .journalMark) (s : State) (bytes : List Byte) :
    s.succeeded w bytes = s.journalMarkDone (wordAt w.data 0) := by
  unfold State.succeeded
  rw [h]

theorem startHoldoff_eq (holdoff : Option Nat) (holdoffUs : Word) : startHoldoff holdoff holdoffUs
    = if holdoff = none ∧ holdoffUs ≠ 0 then some 0 else holdoff := by
  cases holdoff with
  | some n => exact (if_neg fun h => nomatch h.1).symm
  | none =>
    by_cases h : holdoffUs = 0
    · exact (if_pos h).trans (if_neg fun e => e.2 h).symm
    · exact (if_neg h).trans (if_pos ⟨rfl, h⟩).symm

theorem journalMarkDone_same {carried : Word} (h : carried = s.events.noticed) :
    s.journalMarkDone carried = s.modEvents fun e => { e with published := carried } := if_pos h

theorem journalMarkDone_due {carried : Word} (h : carried ≠ s.events.noticed)
    (hd : s.params.journalThreshold.toNat ≤ (carried - s.events.noticed).toNat / 32) : s.journalMarkDone carried
      = (s.modEvents fun e => { e with published := carried }).journalNotice := (if_neg h).trans (if_pos hd)

theorem journalMarkDone_early {carried : Word} (h : carried ≠ s.events.noticed)
    (hd : ¬s.params.journalThreshold.toNat ≤ (carried - s.events.noticed).toNat / 32) : s.journalMarkDone carried
      = s.modEvents fun e => { e with
          published := carried
          holdoff := if e.holdoff = none ∧ s.params.holdoffUs ≠ 0 then some 0 else e.holdoff } :=
  ((if_neg h).trans (if_neg hd)).trans (congrArg (fun x => s.modEvents fun e =>
    { e with published := carried, holdoff := x }) (startHoldoff_eq s.events.holdoff s.params.holdoffUs))

/-- Settles O54. -/
theorem journalMarkWrite : Obligations.JournalMarkWrite := by
  intro w s
  refine ⟨?_, fun ha => ?_⟩
  · show wordAt s.events.markWords 0 = s.events.writeMark
    rw [journalMarkWords_eq]
    exact wordAt_wordBytes (i := 0) rfl []
  · intro carried e placed records threshold
    have hexec : exec (.journalMarkWriteComplete .okay) s
        = .next ((placed.journalMarkDone carried).settle).regrant := by
      have h := write_completes ha rfl []
      rw [succeeded_journalMark ha.request] at h
      exact h
    refine ⟨fun h => ?_, fun h hd => ?_, fun h hd => ?_⟩
    · rw [hexec, journalMarkDone_same (s := placed) h]
      rfl
    · rw [hexec, journalMarkDone_due (s := placed) h hd]
      rfl
    · rw [hexec, journalMarkDone_early (s := placed) h (Nat.not_le.2 hd)]
      rfl

end Sys2Proof.Machine
end

section
/-! PROOFS. Statistics (R153 to R158), and the settings of the Test Source (R161 to R168). -/

namespace Sys2Proof.Machine

variable {s t u : State} {ch : Chan} {r : Request} {w : Transaction} {bytes : List Byte}

/-! ## Snapshots -/

theorem outstanding_eq_false_iff (s : State) (r : Request) :
    s.outstanding r = false ↔ s.waits r = false ∧ s.flies r = false := Bool.or_eq_false_iff

theorem snapshotWrite_none_iff (s : State) (ch : Chan) : s.snapshotWrite ch = .none
    ↔ s.outstanding (.blockWrite ch) = false ∧ s.outstanding (.servedWrite ch) = false := by
  rw [outstanding_eq_false_iff, outstanding_eq_false_iff]
  unfold State.snapshotWrite
  split
  case isTrue hblock => simp [hblock]
  case isFalse hblock =>
    split
    case isTrue hwaits => simp [hwaits]
    case isFalse hwaits =>
      split
      case isTrue hserved => simp [hserved]
      case isFalse hserved =>
        split
        case isTrue hwaiting => simp [hwaiting]
        case isFalse hwaiting => simp [hblock, hwaits, hserved, hwaiting]

theorem succeeded_blockWrite (h : w.request = .blockWrite ch) (s : State) (bytes : List Byte) :
    s.succeeded w bytes = s.blockDone ch := by
  unfold State.succeeded
  rw [h]

theorem failed_blockWrite (h : w.request = .blockWrite ch) (s : State) : s.failed w = s.blockFailed ch := by
  unfold State.failed
  rw [h]

theorem blockFailed_chan (s : State) (ch : Chan) :
    (s.blockFailed ch).chan ch = { s.chan ch with stats := { (s.chan ch).stats with latch := none } } :=
  (hand_chan _ _ _ ch).trans (chan_modStats s ch _)

theorem blockFailed_reports (s : State) (ch : Chan) :
    s.Reports (s.blockFailed ch) [(some ch, .statsFault (s.chan ch).stats.latchedRequest)] :=
  (hand_reports (s.modStats ch fun st => { st with latch := none }) (some ch) _).copy rfl rfl rfl rfl

/-- Settles O55. -/
theorem snapshot : Obligations.Snapshot := by
  intro ch request clear w s st zeros taken
  have htaken : (request ≠ (s.chan ch).stats.served ∧ s.device = .running ∧ s.snapshotWrite ch = .none) ↔ taken := by
    rw [snapshotWrite_none_iff]
  refine ⟨fun h => if_neg fun e => h (htaken.1 e), fun h => if_pos (htaken.2 h), fun ha => ⟨?_, ?_⟩⟩
  · have h := write_completes ha rfl []
    rw [succeeded_blockWrite ha.request] at h
    exact h
  · refine ⟨(s.freePort.spoilBytes w).blockFailed ch, ?_, blockFailed_keeps _ ch, blockFailed_chan _ ch,
      (blockFailed_reports (s.freePort.spoilBytes w) ch).copy rfl rfl rfl rfl⟩
    have h := write_fails ha
    rw [failed_blockWrite ha.request] at h
    exact h

/-! ## The test generation -/

theorem succeeded_testSample (h : w.request = .testSample) (s : State) (bytes : List Byte) :
    s.succeeded w bytes = s.sampleDone (dwordAt bytes 0) (wordAt bytes 8) := by
  unfold State.succeeded
  rw [h]
  rfl

theorem testIsNew_iff (t : TestSource) (generation : Word) : t.isNew generation = true ↔ generation ≠ 0
    ∧ generation ≠ t.adopted ∧ generation ≠ t.rejected ∧ ∀ p, t.waiting = some p → p.generation ≠ generation := by
  unfold TestSource.isNew
  simp [Option.all_eq_true, and_assoc]

theorem sampleDone_known {pointer : Dword} {generation : Word}
    (h : ¬(s.device = .running ∧ s.test.isNew generation = true ∧ s.test.fetch = none)) :
    s.sampleDone pointer generation = s := if_neg h

theorem sampleDone_fetches {pointer : Dword} {generation : Word}
    (h : s.device = .running ∧ s.test.isNew generation = true ∧ s.test.fetch = none)
    (hu : addressUsable pointer 8 = true) : s.sampleDone pointer generation
      = (s.modTest fun t => { t with fetch := some ⟨generation, pointer⟩ }).request .blockFetch :=
  (if_pos h).trans (if_pos hu)

theorem sampleDone_refuses {pointer : Dword} {generation : Word}
    (h : s.device = .running ∧ s.test.isNew generation = true ∧ s.test.fetch = none)
    (hu : ¬addressUsable pointer 8 = true) : s.sampleDone pointer generation = s.rejectTest generation .address :=
  (if_pos h).trans (if_neg hu)

/-- R167: what is handed over and requested after a change to the Test Source. -/
theorem testChange_leaves (s : State) (f : TestSource → TestSource) (b : EventBody) :
    KeepsChans { s with test := f s.test } (((s.modTest f).testStatusChanged).hand none b)
      ∧ s.Reports (((s.modTest f).testStatusChanged).hand none b) [(none, b)]
      ∧ (((s.modTest f).testStatusChanged).hand none b).port.waiting .testStatus = true :=
  ⟨(request_keeps _ _).trans (hand_keeps _ _ _), (hand_reports (s.modTest f).testStatusChanged none b).copy rfl rfl rfl rfl,
    (hand_keeps _ _ _).waiting _ (request_waits _ _)⟩

/-- Settles O56. -/
theorem testSample : Obligations.TestSample := by
  intro bytes w s k ha hb pointer generation new usable c
  have hexec : exec c s = .next ((s.freePort.sampleDone pointer generation).settle).regrant := by
    have h := read_completes k ha rfl hb
    rw [succeeded_testSample ha.request] at h
    exact h
  have hnew : s.test.isNew generation = true ↔ new := testIsNew_iff s.test generation
  have husable : addressUsable pointer 8 = true ↔ usable := addressUsable_iff pointer 8
  refine ⟨fun h => ?known, fun hd hn hf hu => ?fetched, fun hd hn hf hu => ?refused⟩
  case known =>
    rw [hexec, sampleDone_known (s := s.freePort)]
    rintro ⟨hd, hn, hf⟩
    exact h.elim (fun h => h hd) fun h => h.elim (fun h => h (hnew.1 hn)) fun h => h hf
  case fetched =>
    rw [hexec, sampleDone_fetches (s := s.freePort) ⟨hd, hnew.2 hn, hf⟩ (husable.2 hu)]
    rfl
  case refused =>
    obtain ⟨hkeeps, hreports, hwaits⟩ := testChange_leaves s.freePort
      (fun t => { t with rejected := generation, rejectReason := .address }) (.testSource .rejected generation .address)
    refine ⟨s.freePort.rejectTest generation .address, ?_, hkeeps, hreports.copy rfl rfl rfl rfl, hwaits⟩
    rw [hexec, sampleDone_refuses (s := s.freePort) ⟨hd, hnew.2 hn, hf⟩ fun e => hu (husable.1 e)]

/-! ## A block's contents -/

/-- R164: tests 1 to 8. -/
def TestSettings.tests (p : TestSettings) : List (Prop × TestReject) :=
  [(p.run ≠ 0 ∧ p.run ≠ 1, .run),
    (p.bitDivider < 4 ∨ 4096 < p.bitDivider, .bitDivider),
    (p.syncLength < 8 ∨ 64 < p.syncLength, .syncLength),
    (p.frameLength < p.syncLength + 8 ∨ 65536 < p.frameLength, .frameLength),
    (p.lfsrLength < 7 ∨ 31 < p.lfsrLength, .lfsrLength),
    (p.lfsrTap = 0 ∨ p.lfsrLength ≤ p.lfsrTap, .lfsrTap),
    (7 < p.errorExponent, .errorExponent),
    (p.corruptPeriod ≠ 0 ∧ (p.corruptBits = 0 ∨ 8 < p.corruptBits ∨ p.syncLength < p.corruptBits), .corruptBits)]

theorem TestSettings.validate_eq (p : TestSettings) : p.validate = firstFailure .none p.tests := by
  have hrun : 1 < p.run ↔ p.run ≠ 0 ∧ p.run ≠ 1 := by omega
  unfold TestSettings.validate TestSettings.tests
  exact ite_eq_firstFailure hrun <| ite_eq_firstFailure .rfl <| ite_eq_firstFailure .rfl <|
    ite_eq_firstFailure .rfl <| ite_eq_firstFailure .rfl <| ite_eq_firstFailure .rfl <|
    ite_eq_firstFailure .rfl <| ite_eq_firstFailure .rfl rfl

/-- The value of a field of two bytes. -/
theorem halfAt_toNat (bytes : List Byte) (offset : Nat) : (halfAt bytes offset).toNat = fieldAt bytes offset 2 :=
  (BitVec.toNat_ofNat _ _).trans (Nat.mod_eq_of_lt (fieldAt_lt bytes offset 2))

/-- Settles O57: the tests are those of the table, and a field of two or four bytes is its word. -/
theorem testBlockContents : Obligations.TestBlockContents := by
  intro bytes p tests
  refine ⟨fun k t hk ht hbefore => ?_, fun h => ?_, rfl, rfl, rfl, rfl, rfl, rfl, (wordAt_toNat bytes 16).symm,
    (halfAt_toNat bytes 20).symm, rfl, rfl, rfl, rfl⟩
  · exact p.validate_eq.trans (firstFailure_eq hk ht hbefore)
  · exact p.validate_eq.trans (firstFailure_none h)

/-! ## Block fetches -/

theorem succeeded_blockFetch (h : w.request = .blockFetch) (s : State) (bytes : List Byte) :
    s.succeeded w bytes = s.blockFetched (some bytes) := by
  unfold State.succeeded
  rw [h]

theorem failed_blockFetch (h : w.request = .blockFetch) (s : State) : s.failed w = s.blockFetched none := by
  unfold State.failed
  rw [h]

/-- R163: the fetch is over. -/
def State.endBlockFetch (s : State) : State := s.modTest fun u => { u with fetch := none }

theorem blockFetched_idle {f : BlockFetch} (hf : s.test.fetch = some f) (hd : s.device ≠ .running)
    (b : Option (List Byte)) : s.blockFetched b = s.endBlockFetch := by
  unfold State.blockFetched
  rw [hf]
  exact if_neg hd

theorem blockFetched_error {f : BlockFetch} (hf : s.test.fetch = some f) (hd : s.device = .running) :
    s.blockFetched none = s.endBlockFetch.rejectTest f.generation .fetchError := by
  unfold State.blockFetched
  rw [hf]
  exact if_pos hd

theorem blockTorn_iff (f : BlockFetch) (bytes : List Byte) : f.torn bytes = true
    ↔ ¬(wordAt bytes 0 = f.generation ∧ wordAt bytes 32 = f.generation) := by
  unfold BlockFetch.torn blockTail
  rw [Bool.not_eq_true', ← Bool.not_eq_true, Bool.and_eq_true, beq_iff_eq, beq_iff_eq]

theorem blockFetched_torn {f : BlockFetch} (hf : s.test.fetch = some f) (hd : s.device = .running)
    (ht : f.torn bytes = true) : s.blockFetched (some bytes)
      = s.endBlockFetch.hand none (.testSource .torn f.generation .none) := by
  unfold State.blockFetched
  rw [hf]
  exact (if_pos hd).trans (if_pos ht)

theorem blockFetched_whole {f : BlockFetch} (hf : s.test.fetch = some f) (hd : s.device = .running)
    (ht : ¬f.torn bytes = true) : s.blockFetched (some bytes)
      = s.endBlockFetch.judgeBlock (TestSettings.parse bytes) := by
  unfold State.blockFetched
  rw [hf]
  exact (if_pos hd).trans (if_neg ht)

theorem judgeBlock_valid {p : TestSettings} (h : p.validate = .none) : s.judgeBlock p = s.adoptTest p := if_pos h

theorem judgeBlock_invalid {p : TestSettings} (h : p.validate ≠ .none) :
    s.judgeBlock p = s.rejectTest p.generation p.validate := if_neg h

theorem take_of_running {x : TestSource} (h : x.state = .running) (p : TestSettings) :
    x.take p = { x with waiting := some p } := by
  unfold TestSource.take
  rw [h]

theorem take_of_stopped {x : TestSource} (h : x.state = .stopped) {p : TestSettings} (hp : p.run ≠ 1) :
    x.take p = { x with settings := some p } := by
  unfold TestSource.take
  rw [h]
  exact if_neg hp

/-- R168: the source starts at once, at the first bit of a frame. -/
theorem take_of_start {x : TestSource} (h : x.state = .stopped) {p : TestSettings} (hp : p.run = 1) :
    x.take p = { x with
      state := .running, settings := some p, position := 0, errorCount := 0, stopRequested := false
      lfsr := BitVec.ofNat 32 (p.seed.toNat % 2 ^ p.lfsrLength)
      corrupted := decide (p.corruptPeriod = 1)
      corruptionCount := if p.corruptPeriod = 0 ∨ p.corruptPeriod = 1 then 0 else 1 } := by
  have htake : x.take p = { x with settings := some p }.enterRunning p := by
    unfold TestSource.take
    rw [h]
    exact if_pos hp
  rw [htake]
  unfold TestSource.enterRunning TestSource.startFrame
  rcases Nat.lt_trichotomy p.corruptPeriod 1 with hc | hc | hc
  · simp [Nat.lt_one_iff.1 hc, lfsrLoad]
  · simp [hc, lfsrLoad]
  · have h0 : p.corruptPeriod ≠ 0 := by omega
    have h1 : p.corruptPeriod ≠ 1 := by omega
    simp [h0, h1, Ne.symm h1, lfsrLoad]

/-- Settles O58. -/
theorem testBlockFetch : Obligations.TestBlockFetch := by
  intro bytes f w s k ha hb hf c p idle whole refused
  have hokay : exec c s = .next ((s.freePort.blockFetched (some bytes)).settle).regrant := by
    have h := read_completes k ha rfl hb
    rw [succeeded_blockFetch ha.request] at h
    exact h
  have herror : exec (.blockFetchComplete .error) s = .next ((s.freePort.blockFetched none).settle).regrant := by
    have h := read_fails k ha rfl
    rw [failed_blockFetch ha.request] at h
    exact h
  have hwhole : ¬f.torn bytes = true ↔ whole := (not_congr (blockTorn_iff f bytes)).trans Classical.not_not
  have hrefused : ∀ (command : Instr) (reason : TestReject), exec command s
      = .next ((s.freePort.endBlockFetch.rejectTest f.generation reason).settle).regrant → refused command reason := by
    intro command reason h
    obtain ⟨hkeeps, hreports, hwaits⟩ := testChange_leaves s.freePort.endBlockFetch
      (fun t => { t with rejected := f.generation, rejectReason := reason }) (.testSource .rejected f.generation reason)
    exact ⟨_, h, hkeeps, hreports.copy rfl rfl rfl rfl, hwaits⟩
  refine ⟨fun hd => ⟨?_, ?_⟩, fun hd => hrefused _ _ ?_, fun hd ht => ?torn, fun hd hw hv => hrefused _ _ ?_,
    fun hd hw hv => ?adopted⟩
  · rw [hokay, blockFetched_idle (s := s.freePort) hf hd]
    rfl
  · rw [herror, blockFetched_idle (s := s.freePort) hf hd]
    rfl
  · rw [herror, blockFetched_error (s := s.freePort) hf hd]
  case torn =>
    refine ⟨s.freePort.endBlockFetch.hand none (.testSource .torn f.generation .none), ?_, hand_keeps _ _ _,
      (hand_reports s.freePort.endBlockFetch _ _).copy rfl rfl rfl rfl⟩
    rw [hokay, blockFetched_torn (s := s.freePort) hf hd (Classical.not_not.1 fun e => ht (hwhole.1 e))]
  · have hgeneration : p.generation = f.generation := hw.1
    rw [hokay, blockFetched_whole (s := s.freePort) hf hd (hwhole.2 hw), judgeBlock_invalid hv]
    rw [hgeneration]
  case adopted =>
    have hgeneration : p.generation = f.generation := hw.1
    obtain ⟨hkeeps, hreports, hwaits⟩ := testChange_leaves s.freePort.endBlockFetch
      (fun t => { t.take p with adopted := p.generation }) (.testSource .adopted p.generation .none)
    refine ⟨s.freePort.endBlockFetch.adoptTest p, idle.take p, ?_, ?_, ?_, hwaits, fun h => take_of_running (x := idle) h p,
      fun h hr => take_of_stopped (x := idle) h (by rw [hr]; exact Nat.zero_ne_one), fun h hr => take_of_start (x := idle) h hr⟩
    · rw [hokay, blockFetched_whole (s := s.freePort) hf hd (hwhole.2 hw), judgeBlock_valid hv]
    · rw [← hgeneration]
      exact hkeeps
    · rw [← hgeneration]
      exact hreports.copy rfl rfl rfl rfl

end Sys2Proof.Machine
end

section
/-! PROOFS. The stream of the Test Source (R166 to R172): its register, its frames, and its bit clocks. -/

namespace Sys2Proof.Machine

variable {s t u : State} {ch : Chan} {x : TestSource} {p q : TestSettings}

/-! ## The register (R169) -/

/-- R169: every bit moves up by one, the feedback enters at the bottom, and what passes the register's length is lost. -/
theorem lfsrStep_bit (length tap : Nat) (register : Word) {i : Nat} (hi : i < 32) :
    (lfsrStep length tap register).getLsbD i = (decide (i < length)
      && if i = 0 then lfsrFeedback length tap register else register.getLsbD (i - 1)) := by
  unfold lfsrStep
  rw [BitVec.getLsbD_ofNat, decide_eq_true hi, Bool.true_and, Nat.testBit_mod_two_pow]
  congr 1
  cases i with
  | zero =>
    rw [if_pos rfl, Nat.testBit_zero]
    cases lfsrFeedback length tap register <;> simp
  | succ i =>
    have hhalf : (2 * register.toNat + (lfsrFeedback length tap register).toNat) / 2 = register.toNat := by
      have := Bool.toNat_lt (lfsrFeedback length tap register)
      omega
    rw [if_neg (Nat.succ_ne_zero i), Nat.testBit_succ, hhalf]
    rfl

/-! ## A bit within a frame -/

theorem rateDue_iff (x : TestSource) (p : TestSettings) : x.rateDue p = true
    ↔ p.errorExponent ≠ 0 ∧ x.errorCount + 1 = 10 ^ p.errorExponent := by
  unfold TestSource.rateDue
  rw [Bool.and_eq_true, decide_eq_true_iff, decide_eq_true_iff]

/-- R170: the error count after the next bit. -/
def TestSource.errorsNext (x : TestSource) (p : TestSettings) : Nat :=
  if ¬p.syncLength ≤ x.position ∨ p.errorExponent = 0 then x.errorCount
  else if x.errorCount + 1 = 10 ^ p.errorExponent then 0 else x.errorCount + 1

/-- R169: the register after the next bit: a sync bit leaves it as it is. -/
def TestSource.lfsrNext (x : TestSource) (p : TestSettings) : Word :=
  if p.syncLength ≤ x.position then lfsrStep p.lfsrLength p.lfsrTap x.lfsr else x.lfsr

theorem emitted_eq (x : TestSource) (p : TestSettings) : x.emitted p = { x with
    position := x.position + 1, lfsr := x.lfsrNext p, errorCount := x.errorsNext p
    inject := if p.syncLength ≤ x.position then false else x.inject } := by
  unfold TestSource.emitted TestSource.errorsNext TestSource.lfsrNext
  by_cases h : x.position < p.syncLength
  · have hsync : ¬p.syncLength ≤ x.position := Nat.not_le.2 h
    rw [if_pos h, if_pos (Or.inl hsync : ¬p.syncLength ≤ x.position ∨ p.errorExponent = 0), if_neg hsync, if_neg hsync]
  · have hpayload : p.syncLength ≤ x.position := Nat.not_lt.1 h
    have hcount : (if p.errorExponent = 0 then x.errorCount else if x.rateDue p then 0 else x.errorCount + 1)
        = if ¬p.syncLength ≤ x.position ∨ p.errorExponent = 0 then x.errorCount
          else if x.errorCount + 1 = 10 ^ p.errorExponent then 0 else x.errorCount + 1 := by
      by_cases he : p.errorExponent = 0
      · rw [if_pos he, if_pos (.inr he)]
      · rw [if_neg he, if_neg (not_or.2 ⟨Classical.not_not.2 hpayload, he⟩)]
        exact ite_of_iff ((rateDue_iff x p).trans (and_iff_right he))
    rw [if_neg h, hcount, if_pos hpayload, if_pos hpayload]

theorem lfsrNext_bits (x : TestSource) (p : TestSettings) :
    (p.syncLength ≤ x.position → ∀ i, i < 32 → (x.lfsrNext p).getLsbD i = (decide (i < p.lfsrLength)
        && if i = 0 then lfsrFeedback p.lfsrLength p.lfsrTap x.lfsr else x.lfsr.getLsbD (i - 1)))
      ∧ (¬p.syncLength ≤ x.position → x.lfsrNext p = x.lfsr) := by
  refine ⟨fun h i hi => ?_, fun h => if_neg h⟩
  rw [show x.lfsrNext p = _ from if_pos h]
  exact lfsrStep_bit _ _ _ hi

/-! ## The end of a frame -/

theorem lastBit_iff (x : TestSource) (p : TestSettings) : x.lastBit p = true ↔ x.position + 1 = p.frameLength :=
  beq_iff_eq

theorem tick_within (h : ¬x.position + 1 = p.frameLength) : x.tick p = x.emitted p :=
  if_neg fun e => h ((lastBit_iff x p).1 e)

theorem tick_last (h : x.position + 1 = p.frameLength) : x.tick p = (x.emitted p).endFrame p :=
  if_pos ((lastBit_iff x p).2 h)

theorem endFrame_runs (hw : x.waiting = none) (hs : x.stopRequested = false) : x.endFrame p = x.startFrame p := by
  unfold TestSource.endFrame
  rw [hw, hs]
  rfl

theorem endFrame_stops (hw : x.waiting = none) (hs : x.stopRequested = true) : x.endFrame p = x.stop := by
  unfold TestSource.endFrame
  rw [hw, hs]
  rfl

theorem endFrame_applies_stops (hw : x.waiting = some q) (h : x.stopRequested = true ∨ q.run = 0) :
    x.endFrame p = (x.applyOver q p).stop := by
  unfold TestSource.endFrame
  rw [hw]
  exact if_pos h

theorem endFrame_applies_runs (hw : x.waiting = some q) (h : ¬(x.stopRequested = true ∨ q.run = 0)) :
    x.endFrame p = (x.applyOver q p).startFrame q := by
  unfold TestSource.endFrame
  rw [hw]
  exact if_neg h

theorem startFrame_eq (x : TestSource) (q : TestSettings) : x.startFrame q = { x with
    position := 0, corrupted := (x.startFrame q).corrupted, corruptionCount := (x.startFrame q).corruptionCount } := rfl

/-- R171: every corrupt_period-th frame is corrupted. -/
theorem startFrame_corrupts (x : TestSource) (q : TestSettings) :
    (q.corruptPeriod = 0 → (x.startFrame q).corrupted = false ∧ (x.startFrame q).corruptionCount = x.corruptionCount)
      ∧ (q.corruptPeriod ≠ 0 → x.corruptionCount + 1 = q.corruptPeriod →
        (x.startFrame q).corrupted = true ∧ (x.startFrame q).corruptionCount = 0)
      ∧ (q.corruptPeriod ≠ 0 → x.corruptionCount + 1 ≠ q.corruptPeriod →
        (x.startFrame q).corrupted = false ∧ (x.startFrame q).corruptionCount = x.corruptionCount + 1) := by
  unfold TestSource.startFrame
  refine ⟨fun h => ?_, fun h hc => ?_, fun h hc => ?_⟩
  · simp [h]
  · simp [h, hc]
  · simp [h, hc]

/-- R166: the register after the last bit of a frame under settings that others replace. -/
theorem applied_lfsr (x : TestSource) (p q : TestSettings) : ((x.emitted p).applyOver q p).lfsr
    = if q.sameGenerator p then x.lfsrNext p else lfsrLoad q.lfsrLength q.seed := by
  rw [emitted_eq]
  rfl

/-- Settles O60: the bit is emitted, and the last of a frame also ends it. -/
theorem testSourceMoves : Obligations.TestSourceMoves := by
  intro p t _ u feedback payload last errors inject ranOn started
  have hran : u.lfsr = t.lfsrNext p → ranOn := fun h => by
    show (payload → ∀ i, i < 32 → u.lfsr.getLsbD i = _) ∧ (¬payload → u.lfsr = t.lfsr)
    rw [h]
    exact lfsrNext_bits t p
  have hstarted : ∀ x q, u = TestSource.startFrame x q → started q x.corruptionCount := fun x q h => by
    have hcorrupts := startFrame_corrupts x q
    rw [← h] at hcorrupts
    exact hcorrupts
  have hemitted := emitted_eq t p
  refine ⟨fun hl => ?within, fun hl hw hs => ?runs, fun hl hw hs => ?stops, fun new hl hw => ?applies⟩
  case within =>
    have hu : u = _ := (tick_within hl).trans hemitted
    refine ⟨?_, hran (by rw [hu])⟩
    rw [hu]
    rfl
  case runs =>
    have hu : u = (t.emitted p).startFrame p :=
      (tick_last hl).trans (endFrame_runs (by rw [hemitted]; exact hw) (by rw [hemitted]; exact hs))
    rw [hemitted] at hu
    have hcount := hstarted _ p hu
    refine ⟨?_, hran (by rw [hu]; rfl), hcount⟩
    rw [hu]
    rfl
  case stops =>
    have hu : u = (t.emitted p).stop :=
      (tick_last hl).trans (endFrame_stops (by rw [hemitted]; exact hw) (by rw [hemitted]; exact hs))
    rw [hemitted] at hu
    refine ⟨?_, hran (by rw [hu]; rfl)⟩
    rw [hu]
    rfl
  case applies =>
    intro same kept count
    have hsame : new.sameGenerator p = true ↔ same := sameGenerator_iff new p
    have hstops : t.stopRequested = true ∨ new.run = 0 → u = ((t.emitted p).applyOver new p).stop := fun h =>
      (tick_last hl).trans (endFrame_applies_stops (by rw [hemitted]; exact hw) (by rw [hemitted]; exact h))
    have hruns : ¬(t.stopRequested = true ∨ new.run = 0) → u = ((t.emitted p).applyOver new p).startFrame new := fun h =>
      (tick_last hl).trans (endFrame_applies_runs (by rw [hemitted]; exact hw) (by rw [hemitted]; exact h))
    have hlfsr : u.lfsr = if new.sameGenerator p then t.lfsrNext p else lfsrLoad new.lfsrLength new.seed := by
      by_cases h : t.stopRequested = true ∨ new.run = 0
      · rw [hstops h]
        exact applied_lfsr t p new
      · rw [hruns h]
        exact applied_lfsr t p new
    refine ⟨fun h => hran ?_, fun h => ?_, fun h => ?_, fun hs hr => ?_⟩
    · rw [hlfsr, if_pos (hsame.2 h)]
    · rw [hlfsr, if_neg fun e => h (hsame.1 e)]
      rfl
    · have hu := hstops h
      rw [hemitted] at hu
      rw [hu]
      rfl
    · have hu := hruns (not_or.2 ⟨ne_true_of_eq_false hs, hr⟩)
      rw [hemitted] at hu
      have hcount := hstarted _ new hu
      refine ⟨?_, hcount⟩
      rw [hu]
      rfl

/-! ## Bit clocks (R168) -/

theorem emitting_none (h : s.device = .dormant ∨ s.device = .starting ∨ s.device = .faulted ∨ s.test.state = .stopped) :
    s.emitting = none := by
  refine if_neg ?_
  rintro ⟨ht, hr⟩
  rcases h with h | h | h | h
  · rw [h] at ht
    exact Bool.false_ne_true ht
  · rw [h] at ht
    exact Bool.false_ne_true ht
  · rw [h] at ht
    exact Bool.false_ne_true ht
  · rw [h] at hr
    cases hr

theorem emitting_some (hd : s.device = .running ∨ s.device = .draining ∨ s.device = .stopped)
    (hr : s.test.state = .running) (hp : s.test.settings = some p) : s.emitting = some p :=
  (if_pos ⟨(takesEvents_iff s.device).2 hd, hr⟩).trans hp

theorem testBitClock_silent (h : s.emitting = none) : s.testBitClock = s := by
  unfold State.testBitClock
  rw [h]

/-- R168: the bit emitted has reached the channels, and the source has moved on. -/
def State.testEmitted (s : State) (p : TestSettings) : State :=
  (s.deliverTestBit (s.test.nextBit p)).modTest (·.tick p)

theorem testEmitted_test (s : State) (p : TestSettings) : (s.testEmitted p).test = s.test.tick p :=
  congrArg (·.tick p) (deliverTestBit_keeps s _).test

theorem testBitClock_emits (h : s.emitting = some p) : s.testBitClock
    = if (s.testEmitted p).test.state = s.test.state then s.testEmitted p
      else (s.testEmitted p).request .testStatus := by
  unfold State.testBitClock
  rw [h]
  rfl

/-- R169 to R171: the bit of the stream. -/
theorem nextBit_eq {bit : Bool} (hsync : x.position < p.syncLength →
      bit = (p.syncPattern.getLsbD (p.syncLength - 1 - x.position) != (x.corrupted && decide (x.position < p.corruptBits))))
    (hpayload : p.syncLength ≤ x.position → (x.rateDue p = true ∨ x.inject = true →
        bit = !lfsrFeedback p.lfsrLength p.lfsrTap x.lfsr)
      ∧ (¬x.rateDue p = true → x.inject = false → bit = lfsrFeedback p.lfsrLength p.lfsrTap x.lfsr)) :
    x.nextBit p = bit := by
  unfold TestSource.nextBit
  by_cases h : x.position < p.syncLength
  · exact (if_pos h).trans (hsync h).symm
  · obtain ⟨hinverted, hplain⟩ := hpayload (Nat.not_lt.1 h)
    rw [if_neg h]
    cases hr : x.rateDue p with
    | true =>
      rw [hinverted (.inl hr), Bool.true_or, Bool.bne_true]
    | false =>
      cases hi : x.inject with
      | true => rw [hinverted (.inr hi), Bool.or_true, Bool.bne_true]
      | false => rw [hplain (ne_true_of_eq_false hr) hi, Bool.or_false, Bool.bne_false]

theorem deliverTestBit_eq (s : State) (bit : Bool) : s.deliverTestBit bit
    = allChans.foldl (fun v ch => if (v.chan ch).prog.input = .test then v.bitClock ch bit else v) s := rfl

/-- A moment of the stream that has a command of its own (log 2) is the bit clock. -/
theorem dueTestBit_eq {due : TestSource → TestSettings → Bool} (h : s.resetHeld = false) (he : s.emitting = some p)
    (hd : due s.test p = true) :
    (s.live fun t => if t.emitting.any (due t.test) then t.testBitClock.arbitrate else t)
      = exec .testSourceBitClock s := by
  rw [exec_testSourceBitClock, live_next _ h, live_next _ h, if_pos (by rw [he]; exact hd)]

theorem rateBit_iff (x : TestSource) (p : TestSettings) : x.rateBit p = true
    ↔ p.syncLength ≤ x.position ∧ p.errorExponent ≠ 0 ∧ x.errorCount + 1 = 10 ^ p.errorExponent := by
  unfold TestSource.rateBit
  rw [Bool.and_eq_true, decide_eq_true_iff, rateDue_iff]

theorem corruptionDue_iff (x : TestSource) (p : TestSettings) : x.corruptionDue p = true
    ↔ x.position + 1 = p.frameLength ∧ (x.tick p).state = .running ∧ (x.tick p).corrupted = true := by
  unfold TestSource.corruptionDue
  rw [Bool.and_eq_true, Bool.and_eq_true, lastBit_iff, beq_iff_eq, and_assoc]

/-- Settles O59. -/
theorem testBitClock : Obligations.TestBitClock := by
  intro p s hlive k t feedback rate c
  have hrate : t.rateDue p = true ↔ rate := rateDue_iff t p
  refine ⟨fun h => ?_, fun hd hr hp => ?_⟩
  · rw [exec_testSourceBitClock, live_next _ hlive, testBitClock_silent (emitting_none h), k.arbitrate]
  · have he := emitting_some hd hr hp
    have hexec : exec c s = .next s.testBitClock.arbitrate := by
      rw [exec_testSourceBitClock, live_next _ hlive]
    have htest := testEmitted_test s p
    refine ⟨s.testEmitted p, fun bit hsync hpayload => ?_, fun hrun => ?_, fun hstop => ?_,
      fun hl => dueTestBit_eq hlive he ((lastBit_iff t p).2 hl),
      fun hpos hrate => dueTestBit_eq hlive he ((rateBit_iff t p).2 ⟨hpos, hrate⟩),
      fun hl hrun hcorrupted => dueTestBit_eq hlive he ((corruptionDue_iff t p).2 ⟨hl, htest ▸ hrun, htest ▸ hcorrupted⟩)⟩
    · have hbit : t.nextBit p = bit := nextBit_eq hsync fun hpos => by
        rw [hrate]
        exact hpayload hpos
      have htest' : (s.deliverTestBit bit).test = t := (deliverTestBit_keeps s bit).test
      unfold State.testEmitted State.modTest
      rw [hbit, htest', deliverTestBit_eq]
    · rw [hexec, testBitClock_emits he, if_pos (hrun.trans hr.symm)]
    · rw [hexec, testBitClock_emits he, if_neg (by rw [hstop, hr]; exact fun e => nomatch e)]

end Sys2Proof.Machine
end

section
/-! PROOFS. Capture areas (R114 to R127): release marks, and the groups that the Writeback Unit takes up. -/

namespace Sys2Proof.Machine

variable {s t u : State} {ch : Chan} {r : Request} {w : Transaction} {c : Channel} {area : Area} {g : Group} {value : Word}

/-! ## Release marks (R116, R118) -/

theorem offerRelease_arealess (h : (s.chan ch).prog.area = none) (value : Word) : s.offerRelease ch value = s := if_pos h

theorem offerRelease_known (ha : ¬releaseAcceptable value (s.chan ch).wb.acceptedRelease (s.chan ch).wb.writeMark = true)
    (hb : (s.chan ch).wb.lastBad = some value) : s.offerRelease ch value = s := by
  unfold State.offerRelease
  dsimp only
  rw [if_neg ha, if_pos hb, ite_self]

theorem offerRelease_accepted (h : (s.chan ch).prog.area ≠ none)
    (ha : releaseAcceptable value (s.chan ch).wb.acceptedRelease (s.chan ch).wb.writeMark = true) :
    s.offerRelease ch value = if value = (s.chan ch).wb.acceptedRelease
      then s.modWb ch fun w => { w with acceptedRelease := value, lastBad := none }
      else (s.modWb ch fun w => { w with acceptedRelease := value, lastBad := none }).request (.markWrite ch) :=
  (if_neg h).trans (if_pos ha)

/-- R118: a value that is refused, and reported. -/
def State.releaseRefused (s : State) (ch : Chan) (value : Word) : State :=
  (s.modWb ch fun w => { w with lastBad := some value }).count ch fun c =>
    { c with badReleases := saturate c.badReleases 1 }

theorem offerRelease_refused (h : (s.chan ch).prog.area ≠ none)
    (ha : ¬releaseAcceptable value (s.chan ch).wb.acceptedRelease (s.chan ch).wb.writeMark = true)
    (hb : (s.chan ch).wb.lastBad ≠ some value) : s.offerRelease ch value
      = (s.releaseRefused ch value).hand (some ch) (.badRelease value (s.chan ch).wb.writeMark) :=
  (if_neg h).trans ((if_neg ha).trans (if_neg hb))

theorem releaseRefused_chan (s : State) (ch : Chan) (value : Word) : (s.releaseRefused ch value).chan ch
    = { s.chan ch with
        wb := { (s.chan ch).wb with lastBad := some value }
        stats := { (s.chan ch).stats with
          counters := { (s.chan ch).stats.counters with
            badReleases := saturate (s.chan ch).stats.counters.badReleases 1 } } } := by
  unfold State.releaseRefused
  rw [chan_count, chan_modWb]

theorem releaseRefused_reports (s : State) (ch : Chan) (value mark : Word) : s.Reports
    ((s.releaseRefused ch value).hand (some ch) (.badRelease value mark)) [(some ch, .badRelease value mark)] :=
  (hand_reports (s.releaseRefused ch value) _ _).copy rfl rfl rfl rfl

/-- Settles O45. -/
theorem releaseOffered : Obligations.ReleaseOffered := by
  intro ch value s w u acceptable
  have haccept : releaseAcceptable value w.acceptedRelease w.writeMark = true ↔ acceptable :=
    releaseAcceptable_iff value w.acceptedRelease w.writeMark
  refine ⟨fun h => ?same, fun h ha => ?accepted, fun h ha hb => ?refused⟩
  case same =>
    rcases h with h | ⟨ha, hb⟩
    · exact offerRelease_arealess h value
    · exact offerRelease_known (fun e => ha (haccept.1 e)) hb
  case accepted =>
    have hu : u = _ := offerRelease_accepted h (haccept.2 ha)
    refine ⟨offerRelease_keeps s ch value, ?_, ?_, fun hv => ?_, fun hv => ?_⟩
    · rw [hu]
      split <;> rfl
    · rw [hu]
      split
      · rw [chan_modWb]
      · rw [request_chan, chan_modWb]
    · rw [hu, if_neg hv]
      exact request_waits _ _
    · rw [hu, if_pos hv]
      rfl
  case refused =>
    have hu : u = _ := offerRelease_refused h (fun e => ha (haccept.1 e)) hb
    refine ⟨offerRelease_keeps s ch value, ?_, ?_⟩
    · rw [hu, hand_chan, releaseRefused_chan]
    · rw [hu]
      exact releaseRefused_reports s ch value _

/-! ## Groups (R120, R123, R127) -/

theorem nextGroup_record {x : ClosedRecord} {rest : List ClosedRecord} (ha : c.prog.area = some area)
    (hq : c.capture.queue = x :: rest) : c.nextGroup = some (buildGroup area c.wb.writeMark false c.wb.spell.isSome
      ((if c.wb.spell.isSome then 32 else 0) + x.bytes.length)) := by
  unfold Channel.nextGroup
  rw [ha, hq]

theorem nextGroup_alone {d : DropSpell} (ha : c.prog.area = some area) (hq : c.capture.queue = [])
    (hs : c.wb.spell = some d) (hh : c.prog.runState = .halted) :
    c.nextGroup = some (buildGroup area c.wb.writeMark true true 32) := by
  unfold Channel.nextGroup
  rw [ha, hq, hs]
  exact if_pos hh

theorem nextGroup_none (h : c.prog.area = none
    ∨ c.capture.queue = [] ∧ (c.wb.spell = none ∨ c.prog.runState ≠ .halted)) : c.nextGroup = none := by
  unfold Channel.nextGroup
  rcases h with ha | ⟨hq, h⟩
  · rw [ha]
  · rw [hq]
    cases c.prog.area with
    | none => rfl
    | some area =>
      cases hs : c.wb.spell with
      | none => rfl
      | some d => exact if_neg (h.resolve_left (by rw [hs]; exact fun e => nomatch e))

theorem writebackNext_idle (h : (s.chan ch).wb.placement ≠ .idle ∨ (s.chan ch).nextGroup = none) :
    s.writebackNext ch = s := by
  unfold State.writebackNext
  split
  next hp hg =>
    rcases h with h | h
    · exact absurd hp h
    · rw [h] at hg
      cases hg
  next => rfl

theorem writebackNext_places (hp : (s.chan ch).wb.placement = .idle) (hg : (s.chan ch).nextGroup = some g)
    (hr : g.needed ≤ s.areaRoom ch) : s.writebackNext ch = s.placeGroup ch g := by
  unfold State.writebackNext
  rw [hp, hg]
  exact if_pos hr

theorem writebackNext_waits (hp : (s.chan ch).wb.placement = .idle) (hg : (s.chan ch).nextGroup = some g)
    (hr : ¬g.needed ≤ s.areaRoom ch) : s.writebackNext ch
      = (s.modWb ch fun w => { w with placement := .reread g }).requestRead (.reRead ch) := by
  unfold State.writebackNext
  rw [hp, hg]
  exact if_neg hr

theorem placeGroup_chan (s : State) (ch : Chan) (g : Group) : (s.placeGroup ch g).chan ch = { s.chan ch with
    wb := { (s.chan ch).wb with
      placement := .writing g ((s.chan ch).groupBursts ch g)
      spell := if g.gap then none else (s.chan ch).wb.spell } } := by
  unfold State.placeGroup
  rw [request_chan, chan_modWb]

theorem areaRoom_of_area (h : (s.chan ch).prog.area = some area) : s.areaRoom ch
    = area.size - ((s.chan ch).wb.writeMark - (s.chan ch).wb.acceptedRelease).toNat := by
  unfold State.areaRoom
  rw [h]
  rfl

/-! ## The bursts of a group -/

theorem padBytes_eq (n : Nat) :
    padBytes n = ([3, 0, BitVec.ofNat 8 n, BitVec.ofNat 8 (n / 256), 0, 0, 0, 0] : List Byte).take n := rfl

theorem groupBursts_unpadded (ha : c.prog.area = some area) (ch : Chan) (h : g.pad = 0) : c.groupBursts ch g
    = bodyBursts (((c.groupBytes ch g).length + 255) / 256) (area.base + g.offset) (c.groupBytes ch g) := by
  unfold Channel.groupBursts
  dsimp only
  rw [ha, if_pos h, if_pos h]
  rfl

theorem groupBursts_padded (ha : c.prog.area = some area) (ch : Chan) (h : g.pad ≠ 0) : c.groupBursts ch g
    = ⟨area.base + g.offset, padBytes g.pad⟩
      :: bodyBursts (((c.groupBytes ch g).length + 255) / 256) area.base (c.groupBytes ch g) := by
  unfold Channel.groupBursts
  dsimp only
  rw [ha, if_neg h, if_neg h]
  rfl

theorem groupBursts_length (ha : c.prog.area = some area) (ch : Chan) (g : Group) :
    (g.pad = 0 → (c.groupBursts ch g).length = ((c.groupBytes ch g).length + 255) / 256)
      ∧ (g.pad ≠ 0 → (c.groupBursts ch g).length = ((c.groupBytes ch g).length + 255) / 256 + 1) := by
  refine ⟨fun h => ?_, fun h => ?_⟩
  · rw [groupBursts_unpadded ha ch h, bodyBursts_length]
  · rw [groupBursts_padded ha ch h, List.length_cons, bodyBursts_length]

/-- R123: the bursts after the PAD lie end to end. -/
theorem groupBursts_body (ha : c.prog.area = some area) (ch : Chan) (g : Group) {k : Nat}
    (hk : k < ((c.groupBytes ch g).length + 255) / 256) :
    (c.groupBursts ch g)[if g.pad = 0 then k else k + 1]?
      = some ⟨area.base + (if g.pad = 0 then g.offset else 0) + 256 * k, ((c.groupBytes ch g).drop (256 * k)).take 256⟩ := by
  by_cases h : g.pad = 0
  · rw [if_pos h, if_pos h, groupBursts_unpadded ha ch h, bodyBursts_get _ _ _ k hk]
  · rw [if_neg h, if_neg h, groupBursts_padded ha ch h, List.getElem?_cons_succ, bodyBursts_get _ _ _ k hk]
    rfl

/-- R120, R127: the group next, and the bytes it places. -/
theorem nextGroup_of_work (ch : Chan) {alone : Bool} {record : List Byte} (ha : c.prog.area = some area)
    (h : (alone = false ∧ ∃ x rest, c.capture.queue = x :: rest ∧ record = x.bytes)
      ∨ (alone = true ∧ c.capture.queue = [] ∧ c.wb.spell ≠ none ∧ c.prog.runState = .halted ∧ record = [])) :
    let next := buildGroup area c.wb.writeMark alone c.wb.spell.isSome
      ((if c.wb.spell.isSome then 32 else 0) + record.length)
    c.nextGroup = some next
      ∧ c.groupBytes ch next = (c.wb.spell.map fun d => d.record ch c.prog.runIndex).getD [] ++ record := by
  unfold Channel.groupBytes buildGroup
  rcases h with ⟨rfl, x, rest, hq, rfl⟩ | ⟨rfl, hq, hs, hh, rfl⟩
  · refine ⟨nextGroup_record ha hq, ?_⟩
    rw [hq]
    cases c.wb.spell <;> rfl
  · obtain ⟨d, hd⟩ := Option.ne_none_iff_exists'.1 hs
    refine ⟨(nextGroup_alone ha hq hd hh).trans (by rw [hd]; rfl), ?_⟩
    rw [hd]
    rfl

/-- Settles O46. -/
theorem groupTakenUp : Obligations.GroupTakenUp := by
  intro ch s w queue u
  refine ⟨fun h => writebackNext_idle (h.imp_right nextGroup_none), ?_⟩
  intro area alone record hp ha hwork gap offset size pad g room body
  obtain ⟨hnext, hbytes⟩ := nextGroup_of_work ch ha hwork
  have hroom : s.areaRoom ch = room := areaRoom_of_area ha
  have hgroup : (s.chan ch).nextGroup = some g := hnext
  have hgroupBytes : (s.chan ch).groupBytes ch g = gap ++ record := hbytes
  refine ⟨writebackNext_keeps s ch, writebackNext_events s ch, hroom, fun h => ?placed, fun h => ?waits⟩
  case placed =>
    have hu : u = s.placeGroup ch g := writebackNext_places hp hgroup (by rw [hroom]; exact h)
    have hspell : (if g.gap then none else w.spell) = none := by
      show (if w.spell.isSome then none else w.spell) = none
      cases w.spell <;> rfl
    obtain ⟨hunpadded, hpadded⟩ := groupBursts_length ha ch g
    rw [hgroupBytes] at hunpadded hpadded
    refine ⟨_, rfl, ?_, ?_, hunpadded, fun h => ⟨hpadded h, ?_⟩, fun k hk => ?_⟩
    · rw [hu, placeGroup_chan, hspell]
    · rw [hu]
      exact request_waits _ _
    · rw [groupBursts_padded ha ch h]
      rfl
    · have hbody := groupBursts_body ha ch g (k := k) (by rw [hgroupBytes]; exact hk)
      rw [hgroupBytes] at hbody
      exact hbody
  case waits =>
    have hu : u = _ := writebackNext_waits hp hgroup (by rw [hroom]; exact Nat.not_le.2 h)
    rw [hu]
    exact ⟨by rw [requestRead_chan, chan_modWb], requestRead_outstanding _ _⟩

end Sys2Proof.Machine
end

section
/-! PROOFS. The Writeback Unit's completions (R117, R121 to R132): re-reads, bursts and mark writes. -/

namespace Sys2Proof.Machine

variable {s t u : State} {ch : Chan} {r : Request} {w : Transaction} {g : Group} {value : Word} {y : Tally} {d : DropSpell}

/-! ## The channel's Writeback Unit, changed twice -/

theorem modWb_modWb (s : State) (ch : Chan) (f g : Writeback → Writeback) :
    (s.modWb ch f).modWb ch g = s.modWb ch fun x => g (f x) := modChan_modChan ..

theorem modWb_congr {f g : Writeback → Writeback} (h : f (s.chan ch).wb = g (s.chan ch).wb) :
    s.modWb ch f = s.modWb ch g := congrArg (fun x => s.modWb ch fun _ => x) h

/-! ## Drops taken into the spell (R125) -/

theorem open_noroom (frame : Word) (timestamp : Dword) : (oneDrop frame timestamp).open .noroom
    = { first := frame, last := frame, count := 1, noroom := true, stall := false, timestamp := timestamp } := rfl

theorem open_stall (y : Tally) : y.open .stall
    = { first := y.first, last := y.last, count := y.count, noroom := false, stall := true, timestamp := y.timestamp } :=
  rfl

theorem extend_noroom (d : DropSpell) (frame : Word) (timestamp : Dword) : d.extend .noroom (oneDrop frame timestamp)
    = { d with last := frame, count := saturate d.count 1, noroom := true } := by
  show { d with
      last := frame, count := saturate d.count 1, noroom := d.noroom || true, stall := d.stall || false } = _
  rw [Bool.or_true, Bool.or_false]

theorem extend_stall (d : DropSpell) (y : Tally) : d.extend .stall y
    = { d with last := y.last, count := saturate d.count y.count.toNat, stall := true } := by
  show { d with
      last := y.last, count := saturate d.count y.count.toNat, noroom := d.noroom || false, stall := d.stall || true } = _
  rw [Bool.or_true, Bool.or_false]

theorem takeIntoSpell_opens (h : (s.chan ch).wb.spell = none) (reason : DropReason) (y : Tally) :
    s.takeIntoSpell ch reason y = (s.modWb ch fun w => { w with spell := some (y.open reason) }).hand (some ch)
      (.captureDrops reason y.first (s.chan ch).prog.runIndex) := by
  unfold State.takeIntoSpell
  rw [h]

theorem takeIntoSpell_extends (h : (s.chan ch).wb.spell = some d) (reason : DropReason) (y : Tally) :
    s.takeIntoSpell ch reason y = s.modWb ch fun w => { w with spell := some (d.extend reason y) } := by
  unfold State.takeIntoSpell
  rw [h]

theorem takeIntoSpell_spell (s : State) (ch : Chan) (reason : DropReason) (y : Tally) :
    ((s.takeIntoSpell ch reason y).chan ch).wb.spell
      = some (((s.chan ch).wb.spell.map fun d => d.extend reason y).getD (y.open reason)) := by
  cases h : (s.chan ch).wb.spell with
  | none =>
    rw [takeIntoSpell_opens h, hand_chan, chan_modWb]
    rfl
  | some d =>
    rw [takeIntoSpell_extends h, chan_modWb]
    rfl

/-- R125: taking a drop changes the spell only. -/
theorem takeIntoSpell_chan (s : State) (ch : Chan) (reason : DropReason) (y : Tally) :
    (s.takeIntoSpell ch reason y).chan ch = { s.chan ch with
      wb := { (s.chan ch).wb with spell := ((s.takeIntoSpell ch reason y).chan ch).wb.spell } } := by
  cases h : (s.chan ch).wb.spell with
  | none => rw [takeIntoSpell_opens h, hand_chan, chan_modWb]
  | some d => rw [takeIntoSpell_extends h, chan_modWb]

/-- R125: the drop that opens a spell is reported. -/
theorem takeIntoSpell_reports (h : (s.chan ch).wb.spell = none) (reason : DropReason) (y : Tally) :
    s.Reports (s.takeIntoSpell ch reason y) [(some ch, .captureDrops reason y.first (s.chan ch).prog.runIndex)] := by
  rw [takeIntoSpell_opens h]
  exact (hand_reports (s.modWb ch fun w => { w with spell := some (y.open reason) }) _ _).copy rfl rfl rfl rfl

theorem takeIntoSpell_events (h : (s.chan ch).wb.spell = some d) (reason : DropReason) (y : Tally) :
    (s.takeIntoSpell ch reason y).events = s.events := by
  rw [takeIntoSpell_extends h]
  rfl

theorem takeTally_chan (s : State) (ch : Chan) (y : Option Tally) : (s.takeTally ch y).chan ch = { s.chan ch with
    wb := { (s.chan ch).wb with spell := ((s.takeTally ch y).chan ch).wb.spell } } := by
  cases y with
  | none => rfl
  | some y => exact takeIntoSpell_chan s ch .stall y

theorem takeTally_events (h : (s.chan ch).wb.spell = some d) (y : Option Tally) :
    (s.takeTally ch y).events = s.events := by
  cases y with
  | none => rfl
  | some y => exact takeIntoSpell_events h .stall y

/-! ## A record dropped for want of room (R122) -/

/-- R122: the record has left the queue and is counted, and is not yet in the spell. -/
def State.headDropped (s : State) (ch : Chan) : State :=
  ((s.releaseHead ch).endPlacement ch).count ch fun c => { c with dropsNoroom := saturate c.dropsNoroom 1 }

theorem headDropped_keeps (s : State) (ch : Chan) : KeepsBut ch s (s.headDropped ch) :=
  ((releaseHead_keeps _ _).trans (endPlacement_keeps _ _)).trans (count_keeps _ _ _)

theorem headDropped_chan (s : State) (ch : Chan) : ((s.headDropped ch).chan ch).wb.spell = (s.chan ch).wb.spell
    ∧ ((s.headDropped ch).chan ch).prog = (s.chan ch).prog := by
  unfold State.headDropped State.endPlacement State.releaseHead
  rw [chan_count, chan_modWb, chan_modCapture]
  exact ⟨rfl, rfl⟩

theorem noroomDrop_eq {x : ClosedRecord} {rest : List ClosedRecord} (hq : (s.chan ch).capture.queue = x :: rest) :
    s.noroomDrop ch = ((s.headDropped ch).takeIntoSpell ch .noroom (oneDrop x.frameNumber x.timestamp)).takeTally ch
      x.tally := by
  unfold State.noroomDrop
  rw [hq]
  rfl

/-- R125: the drop is reported when it opens the spell, and only then. -/
theorem noroomDrop_reports {x : ClosedRecord} {rest : List ClosedRecord} (hq : (s.chan ch).capture.queue = x :: rest) :
    ((s.chan ch).wb.spell = none → s.Reports (s.noroomDrop ch)
        [(some ch, .captureDrops .noroom x.frameNumber (s.chan ch).prog.runIndex)])
      ∧ ∀ d, (s.chan ch).wb.spell = some d → (s.noroomDrop ch).events = s.events := by
  obtain ⟨hspell, hprog⟩ := headDropped_chan s ch
  have htally := takeTally_events
    (takeIntoSpell_spell (s.headDropped ch) ch .noroom (oneDrop x.frameNumber x.timestamp)) x.tally
  rw [noroomDrop_eq hq]
  refine ⟨fun h => ?_, fun d h => ?_⟩
  · have hreports := takeIntoSpell_reports (hspell.trans h) .noroom (oneDrop x.frameNumber x.timestamp)
    rw [hprog] at hreports
    exact hreports.copy (headDropped_keeps s ch).device.symm (headDropped_keeps s ch).timebase.symm rfl htally
  · exact htally.trans (takeIntoSpell_events (hspell.trans h) _ _)

/-! ## Re-reads (R117, R121) -/

theorem succeeded_reRead (h : w.request = .reRead ch) (s : State) (bytes : List Byte) :
    s.succeeded w bytes = (s.offerRelease ch (wordAt bytes 0)).recheckGroup ch := by
  unfold State.succeeded
  rw [h]
  rfl

theorem failed_reRead (h : w.request = .reRead ch) (s : State) : s.failed w = s.recheckGroup ch := by
  unfold State.failed
  rw [h]
  rfl

theorem recheckGroup_idle (h : ∀ g, (s.chan ch).wb.placement ≠ .reread g) : s.recheckGroup ch = s := by
  unfold State.recheckGroup
  split
  next g hp => exact absurd hp (h g)
  next => rfl

theorem recheckGroup_places (hp : (s.chan ch).wb.placement = .reread g) (hr : g.needed ≤ s.areaRoom ch) :
    s.recheckGroup ch = s.placeGroup ch g := by
  unfold State.recheckGroup
  rw [hp]
  exact if_pos hr

theorem recheckGroup_short (hp : (s.chan ch).wb.placement = .reread g) (hr : ¬g.needed ≤ s.areaRoom ch) :
    s.recheckGroup ch = s.noRoom ch g := by
  unfold State.recheckGroup
  rw [hp]
  exact if_neg hr

/-- R127: a GAP alone is discarded. -/
theorem noRoom_alone (h : g.alone = true) :
    s.noRoom ch g = s.modWb ch fun x => { x with placement := .idle, spell := none } := by
  unfold State.noRoom State.endPlacement
  rw [if_pos h, modWb_modWb]

theorem noRoom_record (h : ¬g.alone = true) : s.noRoom ch g = (s.noroomDrop ch).writebackNext ch := if_neg h

theorem offerRelease_dropsNoroom (s : State) (ch : Chan) (value : Word) :
    ((s.offerRelease ch value).chan ch).stats.counters.dropsNoroom = (s.chan ch).stats.counters.dropsNoroom := by
  unfold State.offerRelease
  dsimp only
  split
  · rfl
  · split
    · split
      · rw [chan_modWb]
      · rw [request_chan, chan_modWb]
    · split
      · rfl
      · rw [hand_chan, chan_count, chan_modWb]

/-- The spell that a record dropped for NOROOM leaves. -/
theorem noroom_spell (spell : Option DropSpell) (frame : Word) (timestamp : Dword) :
    (spell.map fun d => d.extend .noroom (oneDrop frame timestamp)).getD ((oneDrop frame timestamp).open .noroom)
      = match spell with
        | none => { first := frame, last := frame, count := 1, noroom := true, stall := false, timestamp := timestamp }
        | some d => { d with last := frame, count := saturate d.count 1, noroom := true } := by
  cases spell with
  | none => exact open_noroom frame timestamp
  | some d => exact extend_noroom d frame timestamp

theorem stall_spell (spell : DropSpell) (tally : Option Tally) :
    (tally.map fun y => spell.extend .stall y).getD spell = match tally with
      | none => spell
      | some y => { spell with last := y.last, count := saturate spell.count y.count.toNat, stall := true } := by
  cases tally with
  | none => rfl
  | some y => exact extend_stall spell y

/-- Settles O47. -/
theorem reRead : Obligations.ReRead := by
  intro ch response w s k ha hlength c t
  have hexec : exec c s = .next ((t.recheckGroup ch).settle).regrant := by
    cases response with
    | okay bytes =>
      have h := read_completes k ha rfl (hlength bytes rfl)
      rw [succeeded_reRead ha.request] at h
      exact h
    | error =>
      have h := read_fails k ha rfl
      rw [failed_reRead ha.request] at h
      exact h
  obtain ⟨hcapture, hprog, hplacement, hspell, hdrops⟩ : (t.chan ch).capture = (s.chan ch).capture
      ∧ (t.chan ch).prog = (s.chan ch).prog ∧ (t.chan ch).wb.placement = (s.chan ch).wb.placement
      ∧ (t.chan ch).wb.spell = (s.chan ch).wb.spell
      ∧ (t.chan ch).stats.counters.dropsNoroom = (s.chan ch).stats.counters.dropsNoroom := by
    cases response with
    | okay bytes =>
      obtain ⟨h1, h2, h3, h4⟩ := offerRelease_units s.freePort ch (wordAt bytes 0)
      exact ⟨h1, h2, h3, h4, offerRelease_dropsNoroom s.freePort ch (wordAt bytes 0)⟩
    | error => exact ⟨rfl, rfl, rfl, rfl, rfl⟩
  refine ⟨fun h => ?_, fun g hp => ⟨fun hr => ?_, fun hr hg => ?_, fun x rest hr hg hq => ?_⟩⟩
  · rw [hexec, recheckGroup_idle (by rw [hplacement]; exact h)]
  · rw [hexec, recheckGroup_places (hplacement.trans hp) hr]
    rfl
  · rw [hexec, recheckGroup_short (hplacement.trans hp) (Nat.not_le.2 hr), noRoom_alone hg]
  · intro spell
    have hqueue : (t.chan ch).capture.queue = x :: rest := by rw [hcapture, hq]
    obtain ⟨hopened, hextended⟩ := noroomDrop_reports hqueue
    rw [hspell, hprog] at hopened
    rw [hspell] at hextended
    have hchan := noroomDrop_chan t ch x rest hqueue
    dsimp only at hchan
    rw [noroom_spell, stall_spell, hspell, hcapture, hdrops] at hchan
    refine ⟨t.noroomDrop ch, ?_, noroomDrop_keeps t ch, ?_, hopened, hextended⟩
    · rw [hexec, recheckGroup_short (hplacement.trans hp) (Nat.not_le.2 hr), noRoom_record (ne_true_of_eq_false hg)]
    · exact hchan

end Sys2Proof.Machine
end

section
/-! PROOFS. The Writeback Unit's bursts and mark writes (R123, R124, R128 to R132). -/

namespace Sys2Proof.Machine

variable {s t u : State} {ch : Chan} {r : Request} {w : Transaction} {g : Group} {y : Tally} {d : DropSpell}

/-! ## A group that is complete (R124, R127) -/

theorem succeeded_recordBurst (h : w.request = .recordBurst ch) (s : State) (bytes : List Byte) :
    s.succeeded w bytes = s.burstDone ch := by
  unfold State.succeeded
  rw [h]

theorem burstDone_next {b next : Burst} {rest : List Burst} (h : (s.chan ch).wb.placement = .writing g (b :: next :: rest)) :
    s.burstDone ch = (s.modWb ch fun x => { x with placement := .writing g (next :: rest) }).request (.recordBurst ch) := by
  unfold State.burstDone
  rw [h]

/-- R124: the group has been counted and its record has left, before its tally is taken and the next group is taken up. -/
def State.groupCounted (s : State) (ch : Chan) (g : Group) : State :=
  (((s.modWb ch fun w =>
      { w with writeMark := w.writeMark + BitVec.ofNat 32 g.needed, placement := .idle }).releaseRecord ch g).count ch
    (Counters.groupWritten · g)).request (.markWrite ch)

theorem burstDone_last {b : Burst} (h : (s.chan ch).wb.placement = .writing g [b]) : s.burstDone ch
    = ((s.groupCounted ch g).takeTally ch ((s.chan ch).groupTally g)).writebackNext ch := by
  unfold State.burstDone
  rw [h]
  rfl

theorem groupCounted_keeps (s : State) (ch : Chan) (g : Group) : KeepsBut ch s (s.groupCounted ch g) :=
  (((modWb_keeps _ _ _).trans (releaseRecord_keeps _ _ _)).trans (count_keeps _ _ _)).trans (request_keeps _ _).but

theorem releaseRecord_chan (s : State) (ch : Chan) (g : Group) : (s.releaseRecord ch g).chan ch = { s.chan ch with
    capture := { (s.chan ch).capture with
      queue := if g.alone then (s.chan ch).capture.queue else (s.chan ch).capture.queue.tail } } := by
  unfold State.releaseRecord State.releaseHead
  cases g.alone with
  | true => rfl
  | false =>
    rw [if_neg Bool.false_ne_true, if_neg Bool.false_ne_true]
    exact chan_modCapture s ch _

theorem groupCounted_chan (s : State) (ch : Chan) (g : Group) : (s.groupCounted ch g).chan ch = { s.chan ch with
    wb := { (s.chan ch).wb with
      writeMark := (s.chan ch).wb.writeMark + BitVec.ofNat 32 (g.pad + g.size), placement := .idle }
    capture := { (s.chan ch).capture with
      queue := if g.alone then (s.chan ch).capture.queue else (s.chan ch).capture.queue.tail }
    stats := { (s.chan ch).stats with
      counters := { (s.chan ch).stats.counters with
        recordsWritten := if g.alone then (s.chan ch).stats.counters.recordsWritten
          else saturate (s.chan ch).stats.counters.recordsWritten 1
        bytesWritten := saturate (s.chan ch).stats.counters.bytesWritten (g.pad + g.size) } } } := by
  unfold State.groupCounted
  rw [request_chan, chan_count, releaseRecord_chan, chan_modWb]
  rfl

theorem groupCounted_events (s : State) (ch : Chan) (g : Group) : (s.groupCounted ch g).events = s.events := by
  unfold State.groupCounted State.releaseRecord
  split <;> rfl

theorem groupTally_none {c : Channel} (h : g.alone = true ∨ ∀ r rest, c.capture.queue = r :: rest → r.tally = none) :
    c.groupTally g = none := by
  unfold Channel.groupTally
  split
  case isTrue => rfl
  case isFalse ha =>
    cases hq : c.capture.queue with
    | nil => rfl
    | cons r rest => exact (h.resolve_left ha) r rest hq

theorem groupTally_some {c : Channel} {x : ClosedRecord} {rest : List ClosedRecord} (ha : g.alone = false)
    (hq : c.capture.queue = x :: rest) : c.groupTally g = x.tally := by
  unfold Channel.groupTally
  rw [ha, hq]
  rfl

/-! ## A burst that fails (R66, R132) -/

theorem failed_recordBurst (h : w.request = .recordBurst ch) (s : State) : s.failed w = s.burstFailed ch w.address := by
  unfold State.failed
  rw [h]

theorem failChannel_reports (s : State) (ch : Chan) :
    s.Reports (s.failChannel ch) [(some ch, .channelState .failed (s.chan ch).prog.runIndex .writeError)] := by
  unfold State.failChannel
  generalize hv : s.modChan ch (fun c =>
    { c.discard with sync := c.sync.toOff, prog := { c.prog with runState := .failed, held := none } }) = v
  have hreports := channelState_reports v ch .writeError
  have hprog : (v.chan ch).prog = { (s.chan ch).prog with runState := .failed, held := none } := by
    rw [← hv, chan_modChan]
  rw [hprog] at hreports
  exact hreports.copy (by rw [← hv]; rfl) (by rw [← hv]; rfl) (by rw [← hv]; rfl) rfl

theorem burstFailed_reports (s : State) (ch : Chan) (address : Nat) (h : address < 2 ^ 48) :
    s.Reports (s.burstFailed ch address) [(some ch, .captureFault (BitVec.ofNat 48 address)),
      (some ch, .channelState .failed (s.chan ch).prog.runIndex .writeError)] := by
  have hfault := hand_reports s (some ch) (.captureFault (BitVec.ofNat 48 address))
  have hfailed := failChannel_reports (s.hand (some ch) (.captureFault (BitVec.ofNat 48 address))) ch
  rw [hand_chan] at hfailed
  have haddress : busAddress address = address := if_pos h
  unfold State.burstFailed
  rw [haddress]
  exact (hand_keeps s _ _).reports hfault hfailed

theorem burstFailed_waits (s : State) (ch : Chan) (address : Nat) :
    (s.burstFailed ch address).port.waiting (.statusWrite ch) = true := statusChanged_waits _ ch

/-- Settles O48. -/
theorem recordBurst : Obligations.RecordBurst := by
  intro ch w g s ha placed n
  have hexec : exec (.recordBurstComplete ch .okay) s = .next ((placed.burstDone ch).settle).regrant := by
    have h := write_completes ha rfl []
    rw [succeeded_recordBurst ha.request] at h
    exact h
  refine ⟨fun b next rest hp => ?next, fun b hp => ?last, ?failed⟩
  case next => rw [hexec, burstDone_next (s := placed) hp]
  case last =>
    generalize hv : placed.groupCounted ch g = v
    generalize hy : (s.chan ch).groupTally g = tally
    have hkeeps : KeepsBut ch placed v := hv ▸ groupCounted_keeps placed ch g
    have hevents : v.events = s.events := hv ▸ groupCounted_events placed ch g
    have hchan := groupCounted_chan placed ch g
    rw [hv] at hchan
    have hspell : (v.chan ch).wb.spell = (s.chan ch).wb.spell := by
      rw [hchan]
      rfl
    have hindex : (v.chan ch).prog.runIndex = (s.chan ch).prog.runIndex := by
      rw [hchan]
      rfl
    refine ⟨v.takeTally ch tally, ?_, hkeeps.trans (takeTally_keeps v ch tally),
      (takeTally_keeps v ch tally).waiting _ ?_, ?_, fun h => ?_, fun x rest y hg hq hx h => ?_,
      fun x rest y d hg hq hx h => ?_⟩
    · have hdone := burstDone_last (s := placed) hp
      rw [hv, show (placed.chan ch).groupTally g = tally from hy] at hdone
      rw [hexec, hdone]
    · rw [← hv]
      exact request_waits _ _
    · have htally := takeTally_chan v ch tally
      generalize ((v.takeTally ch tally).chan ch).wb.spell = spell at htally ⊢
      rw [htally, hchan]
      rfl
    · rw [← hy, groupTally_none h]
      exact ⟨hspell, hevents⟩
    · have htally : tally = some y := hy.symm.trans ((groupTally_some hg hq).trans hx)
      have hopened := takeIntoSpell_spell v ch .stall y
      have hreports := takeIntoSpell_reports (hspell.trans h) .stall y
      rw [hspell, h] at hopened
      rw [hindex] at hreports
      rw [htally]
      exact ⟨hopened, hreports.copy hkeeps.device.symm hkeeps.timebase.symm hevents.symm rfl⟩
    · have htally : tally = some y := hy.symm.trans ((groupTally_some hg hq).trans hx)
      have hextended := takeIntoSpell_spell v ch .stall y
      rw [hspell, h] at hextended
      rw [htally]
      exact ⟨hextended.trans (congrArg some (extend_stall d y)),
        (takeIntoSpell_events (hspell.trans h) .stall y).trans hevents⟩
  case failed =>
    refine ⟨(s.freePort.spoilBytes w).burstFailed ch w.address, ?_, burstFailed_keeps _ ch _,
      burstFailed_chan (s.freePort.spoilBytes w) ch w.address, burstFailed_waits _ ch _, fun h =>
      (burstFailed_reports (s.freePort.spoilBytes w) ch w.address h).copy rfl rfl rfl rfl⟩
    have h := write_fails ha
    rw [failed_recordBurst ha.request] at h
    exact h

/-! ## Mark writes (R128 to R130) -/

theorem succeeded_markWrite (h : w.request = .markWrite ch) (s : State) (bytes : List Byte) :
    s.succeeded w bytes = s.markDone ch (wordAt w.data 0) := by
  unfold State.succeeded
  rw [h]

theorem noAdvance_iff (x : Writeback) (carried : Word) : x.noAdvance carried = true
    ↔ carried = x.notified ∨ x.runMarked = true ∧ carried = x.published := by
  unfold Writeback.noAdvance
  rw [Bool.or_eq_true, Bool.and_eq_true, beq_iff_eq, beq_iff_eq]

/-- R128: the mark carried has become the published one. -/
def State.markPublished (s : State) (ch : Chan) (carried : Word) : State :=
  s.modWb ch fun x => { x with published := carried, runMarked := true }

theorem markDone_same {carried : Word} (h : (s.chan ch).wb.noAdvance carried = true) :
    s.markDone ch carried = s.markPublished ch carried := if_pos h

theorem markDone_due {carried : Word} (h : ¬(s.chan ch).wb.noAdvance carried = true)
    (hd : (s.chan ch).prog.notifyBytes ≤ (carried - (s.chan ch).wb.notified).toNat) :
    s.markDone ch carried = (s.markPublished ch carried).captureNotice ch := (if_neg h).trans (if_pos hd)

theorem markDone_early {carried : Word} (h : ¬(s.chan ch).wb.noAdvance carried = true)
    (hd : ¬(s.chan ch).prog.notifyBytes ≤ (carried - (s.chan ch).wb.notified).toNat) :
    s.markDone ch carried = (s.markPublished ch carried).modWb ch fun x =>
      { x with holdoff := if (s.chan ch).wb.holdoff = none ∧ s.params.holdoffUs ≠ 0 then some 0
          else (s.chan ch).wb.holdoff } := by
  refine ((if_neg h).trans (if_neg hd)).trans (modWb_congr ?_)
  rw [startHoldoff_eq]
  unfold State.modWb
  rw [chan_modChan]

/-- Settles O49. -/
theorem markWrite : Obligations.MarkWrite := by
  intro ch w s
  refine ⟨?_, fun ha => ?_⟩
  · show wordAt (s.chan ch).wb.markWords 0 = (s.chan ch).wb.writeMark
    rw [markWords_eq]
    exact wordAt_wordBytes (i := 0) rfl []
  · intro carried wb notify same t
    have hexec : exec (.markWriteComplete ch .okay) s
        = .next (((s.freePort.placeBytes w).markDone ch carried).settle).regrant := by
      have h := write_completes ha rfl []
      rw [succeeded_markWrite ha.request] at h
      exact h
    have hsame : wb.noAdvance carried = true ↔ same := noAdvance_iff wb carried
    have hchan : t.chan ch = { s.chan ch with wb := { wb with published := carried, runMarked := true } } :=
      chan_modWb _ ch _
    refine ⟨fun h => ?_, fun h hd => ⟨t.captureNotice ch, ?_, ?_, ?_, fun c hc => ?_⟩, fun h hd => ?_⟩
    · rw [hexec, markDone_same (s := s.freePort.placeBytes w) (hsame.2 h)]
      rfl
    · rw [hexec, markDone_due (s := s.freePort.placeBytes w) (fun e => h (hsame.1 e)) hd]
      rfl
    · exact captureNotice_eq t ch
    · rw [captureNotice_chan, hchan]
    · rw [captureNotice_chan_ne t hc]
      exact chan_modWb_ne _ _ hc
    · rw [hexec, markDone_early (s := s.freePort.placeBytes w) (fun e => h (hsame.1 e)) (Nat.not_le.2 hd)]
      rfl

end Sys2Proof.Machine
end

section
/-! PROOFS. Frame capture (R93 to R108, R119): frames judged, and the record in fill. -/

namespace Sys2Proof.Machine

variable {s t u : State} {ch : Chan} {r : RunProgram} {c : Capture} {f : Fill} {w : Window} {frame : Frame}
  {bits : List Bool} {index : Nat} {bit : Bool}

/-! ## Staging buffers (R96) -/

theorem framing_iff (y : Synchronizer) : y.framing = true ↔ y.state = .lock ∨ y.state = .flywheel := by
  unfold Synchronizer.framing
  cases y.state <;> simp

/-- The staging buffer holds no record. -/
def Capture.Free (c : Capture) (id : BufferId) : Prop :=
  (∀ f, c.fill = some f → f.buffer ≠ id) ∧ ∀ q, q ∈ c.queue → q.buffer ≠ id

theorem bufferState_free_iff (c : Capture) (id : BufferId) : c.bufferState id = .free ↔ c.Free id := by
  have hfill : c.fill.any (·.buffer == id) = true ↔ ¬∀ f, c.fill = some f → f.buffer ≠ id := by
    cases c.fill <;> simp
  have hqueue : c.queue.any (·.buffer == id) = true ↔ ¬∀ q, q ∈ c.queue → q.buffer ≠ id := by simp
  unfold Capture.bufferState Capture.Free
  split
  case isTrue h => exact ⟨(fun e => nomatch e), fun hf => absurd hf.1 (hfill.1 h)⟩
  case isFalse h =>
    split
    case isTrue hq => exact ⟨(fun e => nomatch e), fun hf => absurd hf.2 (hqueue.1 hq)⟩
    case isFalse hq =>
      exact ⟨fun _ => ⟨Classical.not_not.1 fun e => h (hfill.2 e), Classical.not_not.1 fun e => hq (hqueue.2 e)⟩, fun _ => rfl⟩

theorem freeBuffer_some {id : BufferId} (h : c.freeBuffer = some id) : c.Free id := by
  unfold Capture.freeBuffer at h
  split at h
  case isTrue ha =>
    cases h
    exact (bufferState_free_iff c .a).1 ha
  case isFalse =>
    split at h
    case isTrue hb =>
      cases h
      exact (bufferState_free_iff c .b).1 hb
    case isFalse => cases h

theorem freeBuffer_none (h : ∀ id, ¬c.Free id) : c.freeBuffer = none :=
  (if_neg fun e => h .a ((bufferState_free_iff c .a).1 e)).trans
    (if_neg fun e => h .b ((bufferState_free_iff c .b).1 e))

theorem freeBuffer_exists (h : ∃ id, c.Free id) : ∃ id, c.freeBuffer = some id := by
  refine Option.ne_none_iff_exists'.1 fun hn => ?_
  unfold Capture.freeBuffer at hn
  split at hn
  case isTrue => cases hn
  case isFalse ha =>
    split at hn
    case isTrue => cases hn
    case isFalse hb =>
      obtain ⟨id, hid⟩ := h
      cases id with
      | a => exact ha ((bufferState_free_iff c .a).2 hid)
      | b => exact hb ((bufferState_free_iff c .b).2 hid)

/-! ## The record in fill (R101 to R105) -/

theorem captureBit_empty (h : (s.chan ch).capture.fill = none) (index : Nat) (bit : Bool) :
    s.captureBit ch index bit = s := by
  unfold State.captureBit
  rw [h]

theorem truncate_empty (h : (s.chan ch).capture.fill = none) : s.truncate ch = s := by
  unfold State.truncate
  rw [h]

theorem captureBit_open {g : Fill} (h : (s.chan ch).capture.fill = some f) (ht : f.take index bit = g)
    (hg : g.cursor < g.plan.windows.length) :
    s.captureBit ch index bit = s.modCapture ch fun c => { c with fill := some g } := by
  unfold State.captureBit
  rw [h]
  dsimp only
  rw [ht]
  exact if_neg fun e => Nat.not_le.2 hg (of_decide_eq_true e)

theorem captureBit_closes {g : Fill} (h : (s.chan ch).capture.fill = some f) (ht : f.take index bit = g)
    (hg : g.plan.windows.length ≤ g.cursor) : s.captureBit ch index bit = s.closeRecord ch false g := by
  unfold State.captureBit
  rw [h]
  dsimp only
  rw [ht]
  exact if_pos (decide_eq_true hg)

theorem take_outside (hw : f.plan.windows[f.cursor]? = some w) (h : ¬(w.start ≤ index ∧ index < w.start + w.length)) :
    f.take index bit = f := by
  unfold Fill.take
  rw [hw]
  exact if_neg h

theorem take_inside (hw : f.plan.windows[f.cursor]? = some w) (h : w.start ≤ index ∧ index < w.start + w.length)
    (hl : ¬index + 1 = w.start + w.length) : f.take index bit = { f with partialWindow := bit :: f.partialWindow } := by
  unfold Fill.take
  rw [hw]
  exact (if_pos h).trans (if_neg hl)

theorem take_last (hw : f.plan.windows[f.cursor]? = some w) (h : w.start ≤ index ∧ index < w.start + w.length)
    (hl : index + 1 = w.start + w.length) : f.take index bit = f.completeWindow (bit :: f.partialWindow) := by
  unfold Fill.take
  rw [hw]
  exact (if_pos h).trans (if_pos hl)

/-- A record put back into fill changes nothing. -/
theorem modCapture_same (h : (s.chan ch).capture.fill = some f) :
    (s.modCapture ch fun c => { c with fill := some f }) = s := by
  have hc : ({ s.chan ch with capture := { (s.chan ch).capture with fill := some f } } : Channel) = s.chan ch := by
    rw [← h]
  exact (congrArg (fun x => s.modChan ch fun _ => x) hc).trans
    (congrArg (fun p => ({ s with chans := p } : State)) (PerChannel.set_get s.chans ch))

/-- R98, R105: a record closes under the buffer and the frame it was begun with. -/
theorem closeRecord_eq (s : State) (ch : Chan) (b : Bool) {g : Fill} (hb : g.buffer = f.buffer) (hf : g.frame = f.frame) :
    s.closeRecord ch b g = ((s.modCapture ch fun c =>
      { c with
        fill := none
        queue := c.queue ++ [⟨f.buffer, g.record ch b, f.frame.number, f.frame.timestamp, none⟩] }).count ch
      fun n => { n with framesCaptured := saturate n.framesCaptured 1 }).writebackNext ch := by
  rw [← hb, ← hf]
  rfl

theorem truncate_discards (h : (s.chan ch).capture.fill = some f) (hc : f.cursor = 0) : s.truncate ch
    = (s.count ch fun n => { n with truncatedRecords := saturate n.truncatedRecords 1 }).modCapture ch fun c =>
        { c with fill := none } := by
  unfold State.truncate
  rw [h]
  exact if_pos hc

theorem truncate_closes (h : (s.chan ch).capture.fill = some f) (hc : f.cursor ≠ 0) : s.truncate ch
    = (s.count ch fun n => { n with truncatedRecords := saturate n.truncatedRecords 1 }).closeRecord ch true f := by
  unfold State.truncate
  rw [h]
  exact if_neg hc

/-! ## Packing and the CRC (R102, R104) -/

theorem testBit_double_zero (n : Nat) (b : Bool) : (2 * n + b.toNat).testBit 0 = b := by
  rw [Nat.testBit_zero, Nat.mul_add_mod]
  cases b <;> rfl

theorem testBit_double_succ (n : Nat) (b : Bool) (i : Nat) : (2 * n + b.toNat).testBit (i + 1) = n.testBit i := by
  have hb := Bool.toNat_lt b
  rw [Nat.testBit_succ, show (2 * n + b.toNat) / 2 = n by omega]

/-- A number read from bits, the first the most significant: its bits are those, in the reverse order. -/
theorem foldl_testBit (b : Nat → Bool) {m i : Nat} (hi : i < m) :
    ((List.range m).foldl (fun n i => 2 * n + (b i).toNat) 0).testBit (m - 1 - i) = b i := by
  induction m with
  | zero => exact absurd hi (Nat.not_lt_zero i)
  | succ m ih =>
    rw [List.range_succ, List.foldl_append, List.foldl_cons, List.foldl_nil]
    rcases Nat.lt_succ_iff_lt_or_eq.1 hi with h | rfl
    · rw [show m + 1 - 1 - i = (m - 1 - i) + 1 by omega, testBit_double_succ]
      exact ih h
    · rw [Nat.add_sub_cancel, Nat.sub_self, testBit_double_zero]

theorem packByte_bit (bits : List Bool) {i : Nat} (hi : i < 8) : (packByte bits).getLsbD (7 - i) = bits.getD i false := by
  unfold packByte
  rw [BitVec.getLsbD_ofNat, decide_eq_true (by omega : 7 - i < 8), Bool.true_and]
  exact foldl_testBit (fun i => bits.getD i false) hi

/-- R102: eight bits to a byte, and the last byte takes those that remain. -/
theorem packBits_next (h : bits ≠ []) : packBits bits = packByte bits :: packBits (bits.drop 8) := by
  match bits, h with
  | [_], _ | [_, _], _ | [_, _, _], _ | [_, _, _, _], _ | [_, _, _, _, _], _ | [_, _, _, _, _, _], _
  | [_, _, _, _, _, _, _], _ => rfl
  | _ :: _ :: _ :: _ :: _ :: _ :: _ :: _ :: _, _ => rfl

theorem packBits_length (bits : List Bool) : (packBits bits).length = (bits.length + 7) / 8 := by
  induction hn : bits.length using Nat.strongRecOn generalizing bits with
  | ind n ih =>
    cases bits with
    | nil =>
      cases hn
      rfl
    | cons b rest =>
      have hlength : 0 < n := hn ▸ Nat.succ_pos _
      rw [packBits_next (List.cons_ne_nil b rest), List.length_cons,
        ih (n - 8) (by omega) ((b :: rest).drop 8) (by rw [List.length_drop, hn])]
      omega

theorem packBits_bit (bits : List Bool) {i : Nat} (hi : i < 8 * (packBits bits).length) :
    ((packBits bits).getD (i / 8) 0).getLsbD (7 - i % 8) = bits.getD i false := by
  induction hn : bits.length using Nat.strongRecOn generalizing bits i with
  | ind n ih =>
    by_cases hb : bits = []
    · rw [hb] at hi
      exact absurd hi (Nat.not_lt_zero i)
    · rw [packBits_next hb] at hi ⊢
      have hlength : 0 < n := hn ▸ List.length_pos_iff.2 hb
      by_cases h8 : i < 8
      · rw [Nat.div_eq_of_lt h8, Nat.mod_eq_of_lt h8]
        exact packByte_bit bits h8
      · rw [List.length_cons] at hi
        have hrest := ih (n - 8) (by omega) (bits.drop 8) (i := i - 8) (by omega) (by rw [List.length_drop, hn])
        rw [show i / 8 = (i - 8) / 8 + 1 by omega, show i % 8 = (i - 8) % 8 by omega, List.getD_cons_succ, hrest,
          List.getD_eq_getElem?_getD, List.getD_eq_getElem?_getD, List.getElem?_drop, show 8 + (i - 8) = i by omega]

/-- Settles O43. -/
theorem recordFilled : Obligations.RecordFilled := by
  refine ⟨?filled, fun ch s h => ⟨truncate_empty h, captureBit_empty h⟩,
    fun bits => ⟨packBits_length bits, fun i hi => packBits_bit bits hi⟩, fun c b rest => ⟨rfl, rfl⟩⟩
  intro ch f s hf closed
  refine ⟨?_, fun hc => truncate_discards hf hc, fun hc => (truncate_closes hf hc).trans (closeRecord_eq _ ch true rfl rfl)⟩
  intro index bit w hw bytes g u
  have hcursor : f.cursor < f.plan.windows.length := (List.getElem?_eq_some_iff.1 hw).1
  refine ⟨fun h => ?_, fun hs hl => ?_, fun hs hl hm => ?_, fun hs hl hm => ?_⟩
  · exact (captureBit_open hf (take_outside hw (by omega)) hcursor).trans (modCapture_same hf)
  · exact captureBit_open hf (take_inside hw (by omega) (by omega)) hcursor
  · exact captureBit_open hf (take_last hw (by omega) hl) hm
  · exact (captureBit_closes hf (take_last hw (by omega) hl) (Nat.le_of_eq hm.symm)).trans
      (closeRecord_eq s ch false rfl rfl)

end Sys2Proof.Machine
end

section
/-! PROOFS. A frame handed to the Capture Assembler is judged (R93 to R97, R119). -/

namespace Sys2Proof.Machine

variable {s t u : State} {ch : Chan} {r : RunProgram} {frame : Frame} {bits : List Bool}

/-! ## The decimation phase (R93) -/

theorem advancePhase_eq (h : (s.chan ch).prog.settings = some r) : s.advancePhase ch = s.modCapture ch fun x =>
    { x with phase := if r.decimation ≤ (s.chan ch).capture.phase then 0 else (s.chan ch).capture.phase + 1 } := by
  have hd : (s.chan ch).prog.decimation = r.decimation := by
    unfold ProgramUnit.decimation
    rw [h]
    rfl
  unfold State.advancePhase
  rw [hd]
  rfl

theorem closeRecord_phase (s : State) (ch : Chan) (b : Bool) (f : Fill) :
    ((s.closeRecord ch b f).chan ch).capture.phase = (s.chan ch).capture.phase := by
  unfold State.closeRecord
  rw [writebackNext_capture, chan_count, chan_modCapture]

theorem captureBit_phase (s : State) (ch : Chan) (index : Nat) (bit : Bool) :
    ((s.captureBit ch index bit).chan ch).capture.phase = (s.chan ch).capture.phase := by
  unfold State.captureBit
  split
  · rfl
  · dsimp only
    split
    · exact closeRecord_phase s ch false _
    · rw [chan_modCapture]

theorem captureBits_phase (s : State) (ch : Chan) (index : Nat) (bits : List Bool) :
    ((s.captureBits ch index bits).chan ch).capture.phase = (s.chan ch).capture.phase := by
  induction bits generalizing s index with
  | nil => rfl
  | cons bit rest ih => exact (ih (s.captureBit ch index bit) (index + 1)).trans (captureBit_phase s ch index bit)

/-! ## The judgment (R95 to R97) -/

theorem keeps_iff (r : RunProgram) (phase : Nat) (frame : Frame) :
    r.keeps phase frame = true ↔ phase = 0 ∧ (frame.flywheel = false ∨ r.keepFlywheel = true) := by
  unfold RunProgram.keeps
  rw [Bool.and_eq_true, beq_iff_eq, Bool.or_eq_true, Bool.not_eq_true']

theorem judge_passes (hp : (s.chan ch).prog.settings = some r)
    (hk : ¬r.keeps (s.chan ch).capture.phase frame = true) : s.judge ch frame bits = s := by
  unfold State.judge
  rw [hp]
  exact if_neg hk

theorem judge_stalls (hp : (s.chan ch).prog.settings = some r) (hk : r.keeps (s.chan ch).capture.phase frame = true)
    (hb : (s.chan ch).capture.freeBuffer = none) : s.judge ch frame bits = s.stallDrop ch frame := by
  unfold State.judge
  rw [hp]
  dsimp only
  rw [if_pos hk, hb]

theorem judge_begins {id : BufferId} (hp : (s.chan ch).prog.settings = some r)
    (hk : r.keeps (s.chan ch).capture.phase frame = true) (hb : (s.chan ch).capture.freeBuffer = some id) :
    s.judge ch frame bits = (s.modCapture ch fun c =>
      { c with fill := some (Fill.begin id frame (s.chan ch).prog.runIndex r) }).captureBits ch 0 bits := by
  unfold State.judge
  rw [hp]
  dsimp only
  rw [if_pos hk, hb]

theorem frameJudged_framing (h : (s.chan ch).sync.framing = true) :
    s.frameJudged ch frame bits = (s.judge ch frame bits).advancePhase ch := by
  unfold State.frameJudged
  rw [if_pos h]

/-- A frame not kept, or ended by a program applied at its decision, only advances the phase. -/
theorem frameJudged_passes (hp : (s.chan ch).prog.settings = some r)
    (h : ¬(s.chan ch).sync.framing = true ∨ ¬r.keeps (s.chan ch).capture.phase frame = true) :
    s.frameJudged ch frame bits = s.advancePhase ch := by
  unfold State.frameJudged
  split
  case isTrue hf => rw [judge_passes hp (h.resolve_left fun e => e hf)]
  case isFalse => rfl

/-! ## A stall (R97, R119) -/

theorem stallDrop_chan (s : State) (ch : Chan) (frame : Frame) : (s.stallDrop ch frame).chan ch = { s.chan ch with
    capture := { (s.chan ch).capture with queue := holdTally frame.number frame.timestamp (s.chan ch).capture.queue }
    stats := { (s.chan ch).stats with
      counters := { (s.chan ch).stats.counters with
        dropsStall := saturate (s.chan ch).stats.counters.dropsStall 1 } } } := by
  unfold State.stallDrop
  rw [chan_count, chan_modCapture]

theorem holdTally_cons (number : Word) (timestamp : Dword) (x : ClosedRecord) {rest : List ClosedRecord}
    (h : rest ≠ []) : holdTally number timestamp (x :: rest) = x :: holdTally number timestamp rest := by
  cases rest with
  | nil => exact absurd rfl h
  | cons => rfl

/-- R119: the notice is added to the record at the tail of the queue. -/
theorem holdTally_tail (number : Word) (timestamp : Dword) (older : List ClosedRecord) (q : ClosedRecord) :
    holdTally number timestamp (older ++ [q]) = older ++
      [{ q with tally := some ((q.tally.map (Tally.add · number)).getD (oneDrop number timestamp)) }] := by
  induction older with
  | nil => rfl
  | cons x older ih =>
    have hne : older ++ [q] ≠ [] := List.append_ne_nil_of_right_ne_nil older (List.cons_ne_nil q [])
    rw [List.cons_append, holdTally_cons number timestamp x hne, ih, List.cons_append]

/-- R97: the phase moves on after a drop as after any other frame. -/
theorem stall_advances (hp : (s.chan ch).prog.settings = some r) : ((s.stallDrop ch frame).advancePhase ch).chan ch
    = { s.chan ch with
        capture := { (s.chan ch).capture with
          queue := holdTally frame.number frame.timestamp (s.chan ch).capture.queue
          phase := if r.decimation ≤ (s.chan ch).capture.phase then 0 else (s.chan ch).capture.phase + 1 }
        stats := { (s.chan ch).stats with
          counters := { (s.chan ch).stats.counters with
            dropsStall := saturate (s.chan ch).stats.counters.dropsStall 1 } } } := by
  have hprog : ((s.stallDrop ch frame).chan ch).prog.settings = some r := by
    rw [stallDrop_chan]
    exact hp
  rw [advancePhase_eq hprog, chan_modCapture, stallDrop_chan]

/-- Settles O42. -/
theorem frameJudged : Obligations.FrameJudged := by
  refine ⟨fun ch index bit rest s => ⟨rfl, rfl⟩, ?_⟩
  intro ch frame bits r s hp c u framing kept next free
  have hframing : (s.chan ch).sync.framing = true ↔ framing := framing_iff (s.chan ch).sync
  have hkept : r.keeps (s.chan ch).capture.phase frame = true ↔ kept := keeps_iff r (s.chan ch).capture.phase frame
  refine ⟨fun h => ?passed, fun hf hk hfree => ?stalled, fun hf hk hfree => ?begun⟩
  case passed =>
    refine (frameJudged_passes hp ?_).trans (advancePhase_eq hp)
    exact h.imp (fun h e => h (hframing.1 e)) fun h e => h (hkept.1 e)
  case stalled =>
    have hu : u = (s.stallDrop ch frame).advancePhase ch :=
      (frameJudged_framing (hframing.2 hf)).trans (by rw [judge_stalls hp (hkept.2 hk) (freeBuffer_none hfree)])
    have hchan : u.chan ch = _ := (congrArg (fun x : State => x.chan ch) hu).trans (stall_advances hp)
    refine ⟨frameJudged_keeps s ch frame bits, ?_, ?_, ?_, ?_, ?_, fun q older hq => ?_⟩
    · rw [hu]
      rfl
    · rw [hchan]
    · rw [hchan]
    · rw [hchan]
    · rw [hchan]
    · rw [hchan]
      refine (congrArg (holdTally frame.number frame.timestamp) hq).trans ((holdTally_tail _ _ older q).trans ?_)
      cases q.tally <;> rfl
  case begun =>
    obtain ⟨id, hid⟩ := freeBuffer_exists hfree
    refine ⟨id, freeBuffer_some hid, ?_⟩
    have hu : u = _ := (frameJudged_framing (hframing.2 hf)).trans (by rw [judge_begins hp (hkept.2 hk) hid])
    generalize hv : s.modCapture ch (fun c =>
      { c with fill := some (Fill.begin id frame (s.chan ch).prog.runIndex r) }) = v at hu
    have hphase : ((v.captureBits ch 0 bits).chan ch).capture.phase = c.phase := by
      rw [captureBits_phase, ← hv, chan_modCapture]
    have hprog : ((v.captureBits ch 0 bits).chan ch).prog.settings = some r := by
      rw [(captureBits_units v ch 0 bits).prog, ← hv, chan_modCapture]
      exact hp
    rw [hu, advancePhase_eq hprog, hphase, ← hv]
    rfl

end Sys2Proof.Machine
end

section
/-! PROOFS. The bytes of capture records and of event records (R106, R126, R136, R150, R206), field by field. -/

namespace Sys2Proof.Machine

/-! ## The 32 bytes with which every capture record begins (12.4) -/

/-- The fields that FRAME and GAP records have in common places. -/
def recordHead (kind flags : Byte) (length : Nat) (b4 b5 b6 b7 : Byte) (w8 w12 d16 w24 w28 : Nat) : List Byte :=
  [kind, flags] ++ (bytesOf 2 length ++ ([b4, b5, b6, b7] ++ (bytesOf 4 w8 ++ (bytesOf 4 w12 ++ (bytesOf 8 d16
    ++ (bytesOf 4 w24 ++ bytesOf 4 w28))))))

section
variable (kind flags : Byte) (length : Nat) (b4 b5 b6 b7 : Byte) (w8 w12 d16 w24 w28 : Nat) (l : List Byte)

theorem recordHead_length : (recordHead kind flags length b4 b5 b6 b7 w8 w12 d16 w24 w28).length = 32 := rfl

theorem recordHead_bytes : let r := recordHead kind flags length b4 b5 b6 b7 w8 w12 d16 w24 w28 ++ l
    byteAt r 0 = kind ∧ byteAt r 1 = flags ∧ byteAt r 4 = b4 ∧ byteAt r 5 = b5 ∧ byteAt r 6 = b6 ∧ byteAt r 7 = b7 :=
  ⟨rfl, rfl, rfl, rfl, rfl, rfl⟩

theorem recordHead_words : let r := recordHead kind flags length b4 b5 b6 b7 w8 w12 d16 w24 w28 ++ l
    halfAt r 2 = BitVec.ofNat 16 length ∧ wordAt r 8 = BitVec.ofNat 32 w8 ∧ wordAt r 12 = BitVec.ofNat 32 w12
      ∧ dwordAt r 16 = BitVec.ofNat 64 d16 ∧ wordAt r 24 = BitVec.ofNat 32 w24 ∧ wordAt r 28 = BitVec.ofNat 32 w28 := by
  intro r
  have hr : r = [kind, flags] ++ (bytesOf 2 length ++ ([b4, b5, b6, b7] ++ (bytesOf 4 w8 ++ (bytesOf 4 w12
      ++ (bytesOf 8 d16 ++ (bytesOf 4 w24 ++ (bytesOf 4 w28 ++ l))))))) := by
    simp only [r, recordHead, List.append_assoc]
  have hskip : ∀ k, wordAt r (8 + k)
      = wordAt (bytesOf 4 w8 ++ (bytesOf 4 w12 ++ (bytesOf 8 d16 ++ (bytesOf 4 w24 ++ (bytesOf 4 w28 ++ l))))) k := by
    intro k
    rw [hr, show 8 + k = 2 + (2 + (4 + k)) by omega, wordAt_skip (n := 2) (a := [kind, flags]) rfl,
      wordAt_skip (bytesOf_length 2 _), wordAt_skip (n := 4) (a := [b4, b5, b6, b7]) rfl]
  refine ⟨?_, ?_, ?_, ?_, ?_, ?_⟩
  · rw [hr]
    exact (halfAt_skip (n := 2) rfl 0).trans (halfAt_bytesOf _ _)
  · exact (hskip 0).trans (wordAt_bytesOf _ _)
  · exact (hskip 4).trans ((wordAt_skip (bytesOf_length 4 _) 0).trans (wordAt_bytesOf _ _))
  · rw [hr, show 16 = 2 + (2 + (4 + (4 + (4 + 0)))) from rfl, dwordAt_skip (n := 2) (a := [kind, flags]) rfl,
      dwordAt_skip (bytesOf_length 2 _), dwordAt_skip (n := 4) (a := [b4, b5, b6, b7]) rfl, dwordAt_skip (bytesOf_length 4 _), dwordAt_skip (bytesOf_length 4 _), dwordAt_bytesOf]
  · exact (hskip (4 + (4 + (8 + 0)))).trans (by
      rw [wordAt_skip (bytesOf_length 4 _), wordAt_skip (bytesOf_length 4 _), wordAt_skip (bytesOf_length 8 _),
        wordAt_bytesOf])
  · exact (hskip (4 + (4 + (8 + (4 + 0))))).trans (by
      rw [wordAt_skip (bytesOf_length 4 _), wordAt_skip (bytesOf_length 4 _), wordAt_skip (bytesOf_length 8 _),
        wordAt_skip (bytesOf_length 4 _), wordAt_bytesOf])

end

/-! ## Bits and codes of one byte -/

/-- The bits of a byte put together from five flags. -/
theorem flags_bits (a b c d e : Bool) :
    let x := BitVec.ofNat 8 (a.toNat + 2 * b.toNat + 4 * c.toNat + 8 * d.toNat + 16 * e.toNat)
    x.getLsbD 0 = a ∧ x.getLsbD 1 = b ∧ x.getLsbD 2 = c ∧ x.getLsbD 3 = d ∧ x.getLsbD 4 = e
      ∧ ∀ k, 5 ≤ k → x.getLsbD k = false := by
  intro x
  have hbits : x.getLsbD 0 = a ∧ x.getLsbD 1 = b ∧ x.getLsbD 2 = c ∧ x.getLsbD 3 = d ∧ x.getLsbD 4 = e
      ∧ x.getLsbD 5 = false ∧ x.getLsbD 6 = false ∧ x.getLsbD 7 = false := by
    revert a b c d e
    decide
  obtain ⟨h0, h1, h2, h3, h4, h5, h6, h7⟩ := hbits
  refine ⟨h0, h1, h2, h3, h4, fun k hk => ?_⟩
  by_cases h8 : 8 ≤ k
  · exact BitVec.getLsbD_of_ge x k h8
  · obtain rfl | rfl | rfl : k = 5 ∨ k = 6 ∨ k = 7 := by omega
    · exact h5
    · exact h6
    · exact h7

/-- R206: the window mask has a bit for each complete window. -/
theorem mask_bit (n : Nat) {k : Nat} (hk : k < 8) : (BitVec.ofNat 8 (2 ^ n - 1)).getLsbD k = decide (k < n) := by
  rw [BitVec.getLsbD_ofNat, decide_eq_true hk, Bool.true_and, Nat.testBit_two_pow_sub_one]

theorem chanNumber_byte (ch : Chan) : (BitVec.ofNat 8 (chanNumber ch)).toNat = chanNumber ch := by
  cases ch <;> rfl

theorem ofNat_word (x : Word) : BitVec.ofNat 32 x.toNat = x := (BitVec.ofNat_toNat 32 x).trans (BitVec.setWidth_eq x)

theorem ofNat_dword (x : Dword) : BitVec.ofNat 64 x.toNat = x := (BitVec.ofNat_toNat 64 x).trans (BitVec.setWidth_eq x)

/-! ## FRAME and GAP records -/

/-- R106: the length of a FRAME record. -/
def Fill.total (f : Fill) : Nat := roundUp8 (32 + f.payload.length)

theorem Fill.total_bounds (f : Fill) :
    f.total % 8 = 0 ∧ 32 + f.payload.length ≤ f.total ∧ f.total < 40 + f.payload.length := by
  unfold Fill.total roundUp8
  omega

/-- The first 32 bytes of a FRAME record. -/
def Fill.head (ch : Chan) (truncated : Bool) (f : Fill) : List Byte :=
  recordHead 1 (BitVec.ofNat 8 (frameFlags truncated f.frame)) f.total f.runIndex (BitVec.ofNat 8 (2 ^ f.cursor - 1))
    (BitVec.ofNat 8 f.frame.distance) (BitVec.ofNat 8 (chanNumber ch)) f.frame.number.toNat f.plan.generation.toNat
    f.frame.timestamp.toNat f.payload.length (~~~f.crc).toNat

theorem Fill.record_eq (ch : Chan) (truncated : Bool) (f : Fill) : f.record ch truncated
    = f.head ch truncated ++ (f.payload ++ List.replicate (f.total - (32 + f.payload.length)) 0) := by
  unfold Fill.record Fill.head recordHead
  simp only [List.append_assoc]
  rfl

theorem Fill.record_length (ch : Chan) (truncated : Bool) (f : Fill) : (f.record ch truncated).length = f.total := by
  have hbounds := f.total_bounds
  have hhead : (f.head ch truncated).length = 32 := rfl
  rw [Fill.record_eq, List.length_append, List.length_append, List.length_replicate, hhead]
  omega

/-- R106: the payload follows the first 32 bytes. -/
theorem Fill.record_payload (ch : Chan) (truncated : Bool) (f : Fill) {i : Nat} (h : i < f.payload.length) :
    (f.record ch truncated)[32 + i]? = f.payload[i]? := by
  have hhead : (f.head ch truncated).length = 32 := rfl
  rw [Fill.record_eq, List.getElem?_append_right (by omega), hhead, Nat.add_sub_cancel_left, List.getElem?_append_left h]

/-- R106: zeros fill the record up. -/
theorem Fill.record_padding (ch : Chan) (truncated : Bool) (f : Fill) {i : Nat} (h : 32 + f.payload.length ≤ i) :
    byteAt (f.record ch truncated) i = 0 := by
  have hhead : (f.head ch truncated).length = 32 := rfl
  obtain ⟨k, rfl⟩ := Nat.exists_eq_add_of_le h
  rw [Fill.record_eq, Nat.add_assoc, byteAt_skip hhead, byteAt_skip rfl]
  unfold byteAt
  rw [List.getD_eq_getElem?_getD, List.getElem?_replicate]
  split <;> rfl

theorem DropSpell.record_eq (ch : Chan) (runIndex : Byte) (d : DropSpell) : d.record ch runIndex
    = recordHead 2 (BitVec.ofNat 8 (d.noroom.toNat + 2 * d.stall.toNat)) 32 runIndex 0 0 (BitVec.ofNat 8 (chanNumber ch))
        d.first.toNat d.last.toNat d.timestamp.toNat d.count.toNat 0 ++ [] := by
  unfold DropSpell.record recordHead
  simp only [List.append_assoc, List.append_nil]

/-! ## Event records (R150) -/

theorem JournalRecord.bytes_eq (j : JournalRecord) : j.bytes = bytesOf 4 j.sequence.toNat
    ++ (bytesOf 1 j.event.body.fields.1 ++ (bytesOf 1 j.event.channelCode ++ (bytesOf 2 j.event.body.fields.2.1
    ++ (bytesOf 8 j.event.timestamp.toNat ++ (bytesOf 4 j.event.body.fields.2.2.1
    ++ (bytesOf 4 j.event.body.fields.2.2.2.1 ++ (bytesOf 8 j.event.body.fields.2.2.2.2 ++ []))))))) := by
  unfold JournalRecord.bytes
  simp only [List.append_assoc, List.append_nil]

theorem channelCode_some {e : Event} {ch : Chan} (h : e.channel = some ch) :
    BitVec.ofNat 8 e.channelCode = BitVec.ofNat 8 (chanNumber ch) := by
  unfold Event.channelCode
  rw [h]
  rfl

theorem channelCode_none {e : Event} (h : e.channel = none) : BitVec.ofNat 8 e.channelCode = 0xFF := by
  unfold Event.channelCode
  rw [h]
  rfl

theorem JournalRecord.bytes_fields (j : JournalRecord) : wordAt j.bytes 0 = j.sequence
    ∧ halfAt j.bytes 6 = BitVec.ofNat 16 j.event.body.fields.2.1
    ∧ dwordAt j.bytes 8 = j.event.timestamp ∧ wordAt j.bytes 16 = BitVec.ofNat 32 j.event.body.fields.2.2.1
    ∧ wordAt j.bytes 20 = BitVec.ofNat 32 j.event.body.fields.2.2.2.1
    ∧ dwordAt j.bytes 24 = BitVec.ofNat 64 j.event.body.fields.2.2.2.2 := by
  rw [j.bytes_eq]
  refine ⟨(wordAt_bytesOf _ _).trans (ofNat_word _), ?_, ?_, ?_, ?_, ?_⟩
  · rw [show 6 = 4 + (1 + (1 + 0)) from rfl, halfAt_skip (bytesOf_length 4 _), halfAt_skip (bytesOf_length 1 _),
      halfAt_skip (bytesOf_length 1 _), halfAt_bytesOf]
  · rw [show 8 = 4 + (1 + (1 + (2 + 0))) from rfl, dwordAt_skip (bytesOf_length 4 _), dwordAt_skip (bytesOf_length 1 _),
      dwordAt_skip (bytesOf_length 1 _), dwordAt_skip (bytesOf_length 2 _), dwordAt_bytesOf, ofNat_dword]
  · rw [show 16 = 4 + (1 + (1 + (2 + (8 + 0)))) from rfl, wordAt_skip (bytesOf_length 4 _),
      wordAt_skip (bytesOf_length 1 _), wordAt_skip (bytesOf_length 1 _), wordAt_skip (bytesOf_length 2 _),
      wordAt_skip (bytesOf_length 8 _), wordAt_bytesOf]
  · rw [show 20 = 4 + (1 + (1 + (2 + (8 + (4 + 0))))) from rfl, wordAt_skip (bytesOf_length 4 _),
      wordAt_skip (bytesOf_length 1 _), wordAt_skip (bytesOf_length 1 _), wordAt_skip (bytesOf_length 2 _),
      wordAt_skip (bytesOf_length 8 _), wordAt_skip (bytesOf_length 4 _), wordAt_bytesOf]
  · rw [show 24 = 4 + (1 + (1 + (2 + (8 + (4 + (4 + 0)))))) from rfl, dwordAt_skip (bytesOf_length 4 _),
      dwordAt_skip (bytesOf_length 1 _), dwordAt_skip (bytesOf_length 1 _), dwordAt_skip (bytesOf_length 2 _),
      dwordAt_skip (bytesOf_length 8 _), dwordAt_skip (bytesOf_length 4 _), dwordAt_skip (bytesOf_length 4 _),
      dwordAt_bytesOf]

/-- Settles O44: the first 32 bytes of a capture record, its payload and padding, and the 32 bytes of an event record. -/
theorem recordFormats : Obligations.RecordFormats := by
  intro ch f truncated d runIndex j r n gap e
  refine ⟨?frame, ?gap, ?event, ?fields, ?codes⟩
  case frame =>
    obtain ⟨heven, hlow, hhigh⟩ := f.total_bounds
    have hlength : r.length = f.total := f.record_length ch truncated
    have hr : r = f.head ch truncated ++ (f.payload ++ List.replicate (f.total - (32 + f.payload.length)) 0) :=
      f.record_eq ch truncated
    obtain ⟨hkind, hflags, hindex, hmask, hdistance, hchan⟩ : byteAt r 0 = _ ∧ byteAt r 1 = _ ∧ byteAt r 4 = _
        ∧ byteAt r 5 = _ ∧ byteAt r 6 = _ ∧ byteAt r 7 = _ := hr ▸ recordHead_bytes ..
    obtain ⟨hsize, hnumber, hgeneration, htime, hpayload, hcrc⟩ : halfAt r 2 = _ ∧ wordAt r 8 = _ ∧ wordAt r 12 = _
        ∧ dwordAt r 16 = _ ∧ wordAt r 24 = _ ∧ wordAt r 28 = _ := hr ▸ recordHead_words ..
    obtain ⟨h0, h1, h2, h3, h4, hrest⟩ :=
      flags_bits truncated f.frame.flywheel f.frame.slippedEarly f.frame.slippedLate f.frame.inverted
    rw [hlength, hflags, hmask, hchan, hsize, hnumber, hgeneration, htime, hcrc]
    exact ⟨heven, hlow, hhigh, hkind, h0, h1, h2, h3, h4, hrest, rfl, hindex, fun k hk => mask_bit f.cursor hk, hdistance,
      chanNumber_byte ch, ofNat_word _, ofNat_word _, ofNat_dword _, hpayload, ofNat_word _,
      fun i hi => f.record_payload ch truncated hi, fun i hi => f.record_padding ch truncated hi⟩
  case gap =>
    have hgap : gap = _ := d.record_eq ch runIndex
    obtain ⟨hkind, hflags, hindex, h5, h6, hchan⟩ : byteAt gap 0 = _ ∧ byteAt gap 1 = _ ∧ byteAt gap 4 = _
        ∧ byteAt gap 5 = _ ∧ byteAt gap 6 = _ ∧ byteAt gap 7 = _ := hgap ▸ recordHead_bytes ..
    obtain ⟨hsize, hfirst, hlast, htime, hcount, hzero⟩ : halfAt gap 2 = _ ∧ wordAt gap 8 = _ ∧ wordAt gap 12 = _
        ∧ dwordAt gap 16 = _ ∧ wordAt gap 24 = _ ∧ wordAt gap 28 = _ := hgap ▸ recordHead_words ..
    obtain ⟨h0, h1, h2, h3, h4, hrest⟩ := flags_bits d.noroom d.stall false false false
    have hclear : ∀ k, 2 ≤ k → (BitVec.ofNat 8 (d.noroom.toNat + 2 * d.stall.toNat)).getLsbD k = false := fun k hk => by
      rcases (by omega : k = 2 ∨ k = 3 ∨ k = 4 ∨ 5 ≤ k) with rfl | rfl | rfl | hk
      · exact h2
      · exact h3
      · exact h4
      · exact hrest k hk
    rw [hflags, hchan, hfirst, hlast, htime, hcount]
    exact ⟨rfl, hkind, h0, h1, hclear, hsize, hindex, h5, h6, chanNumber_byte ch, ofNat_word _, ofNat_word _,
      ofNat_dword _, ofNat_word _, hzero⟩
  case event =>
    obtain ⟨hsequence, hcode, htime, ha, hb, hc⟩ := j.bytes_fields
    have hchannel : byteAt j.bytes 5 = BitVec.ofNat 8 j.event.channelCode := rfl
    refine ⟨rfl, hsequence, rfl, fun c h => ?_, fun h => hchannel.trans (channelCode_none h), hcode, htime, ha, hb, hc⟩
    rw [hchannel, channelCode_some h]
    exact chanNumber_byte c
  case fields =>
    intro b v w g i h address loss activity change reject run cause drop outcome test device sense
    exact ⟨rfl, rfl, rfl, rfl, rfl, rfl, rfl, rfl, rfl, rfl, rfl, rfl, rfl, rfl, rfl, rfl, rfl⟩
  case codes => decide

end Sys2Proof.Machine
end

section
/-! PROOFS. What a program applied in a run leaves of its channel (R22 to R25, R56 to R62, R89): the record in fill, truncated or
not, and beside it what each step of the application changes. -/

namespace Sys2Proof.Machine

variable {s t u : State} {ch : Chan} {c : Channel} {r old : RunProgram} {b : Bool}

/-! ## A channel, seen as its record in fill and what stands beside it -/

/-- What the steps of an application change beside the record in fill and the groups that it joins. -/
structure Outlook where
  prog : ProgramUnit
  sync : Synchronizer
  monitor : Monitor
  phase : Nat
  losses : Word
  quietEntries : Word
  noclockEntries : Word

def Channel.outlook (c : Channel) : Outlook where
  prog := c.prog
  sync := c.sync
  monitor := c.monitor
  phase := c.capture.phase
  losses := c.stats.counters.losses
  quietEntries := c.stats.counters.quietEntries
  noclockEntries := c.stats.counters.noclockEntries

def Channel.under (c : Channel) (o : Outlook) : Channel :=
  { c with
    prog := o.prog, sync := o.sync, monitor := o.monitor, capture := { c.capture with phase := o.phase }
    stats := { c.stats with counters := { c.stats.counters with
      losses := o.losses, quietEntries := o.quietEntries, noclockEntries := o.noclockEntries } } }

theorem Channel.under_outlook (c : Channel) : c.under c.outlook = c := rfl

/-- The channel with its record in fill truncated, or as it is. -/
def Channel.closedIf (ch : Chan) (b : Bool) (c : Channel) : Channel := if b then c.truncated ch else c

/-- The Program Unit has the capture area and the run index of the channel's. -/
structure Outlook.Fits (o : Outlook) (c : Channel) : Prop where
  area : o.prog.area = c.prog.area
  runIndex : o.prog.runIndex = c.prog.runIndex

variable {o : Outlook}

theorem truncated_under (h : o.Fits c) (ch : Chan) : (c.under o).truncated ch = (c.truncated ch).under o :=
  Channel.truncated_beside ch c o.prog o.sync o.monitor o.phase o.losses o.quietEntries o.noclockEntries h.area h.runIndex

/-- A truncation is the same before the other steps as after them, and a second one changes nothing. -/
theorem closedIf_truncated (h : o.Fits c) (ch : Chan) (b : Bool) :
    ((c.closedIf ch b).under o).truncated ch = (c.closedIf ch true).under o := by
  cases b with
  | false => exact truncated_under h ch
  | true =>
    have hprog : (c.truncated ch).prog = c.prog := (Channel.truncated_blocks ch c).1
    have hfits : o.Fits (c.truncated ch) := ⟨by rw [hprog]; exact h.area, by rw [hprog]; exact h.runIndex⟩
    exact (truncated_under hfits ch).trans (congrArg (Channel.under · o) (Channel.truncated_twice ch c))

theorem closedIf_wb (ch : Chan) (b : Bool) (c : Channel) : (c.closedIf ch b).wb = { c.wb with
    placement := (c.closedIf ch b).wb.placement, spell := (c.closedIf ch b).wb.spell } := by
  cases b with
  | false => rfl
  | true => exact Channel.truncated_wb ch c

/-! ## The steps of an application, one by one -/

/-- R22, R58: the synchronizer after a heavy change on a RUNNING channel. -/
def Synchronizer.retuned (y : Synchronizer) (invert : Bool) : Synchronizer :=
  { y.emptied .search with inverted := invert }

/-- R22, R57, R62: the synchronizer after a change. -/
def Synchronizer.reframed (y : Synchronizer) (r : RunProgram) (running heavy : Bool) : Synchronizer :=
  if running then if heavy then y.retuned r.invert else y.adjust r else { y with inverted := r.invert }

/-- R22, R57, R93: what a change of the framing leaves. -/
def Outlook.reframed (o : Outlook) (r : RunProgram) (running heavy : Bool) (decimation : Nat) : Outlook :=
  { o with
    sync := o.sync.reframed r running heavy
    phase := if heavy = true ∨ r.decimation = decimation then o.phase else 0
    losses := if heavy = true ∧ o.sync.framing = true then saturate o.losses 1 else o.losses }

/-- R41: what the restart of the monitor leaves. -/
def Outlook.restarted (o : Outlook) : Outlook :=
  { o with
    monitor := o.monitor.restart
    quietEntries := if o.monitor.state = .quiet then o.quietEntries else saturate o.quietEntries 1 }

/-- R21, R37: what entry to NOCLOCK leaves. -/
def Outlook.unclocked (o : Outlook) : Outlook :=
  { o with
    monitor := o.monitor.toNoclock
    sync := o.sync.afterClockLoss
    losses := if o.sync.framing = true then saturate o.losses 1 else o.losses
    noclockEntries := saturate o.noclockEntries 1 }

/-- R31, R40, R41: what the monitor's part of an application leaves. -/
def Outlook.monitored (o : Outlook) (switched reached : Bool) : Outlook :=
  if switched then o.restarted else if reached then o.unclocked else o

/-- R28, R62: what entry to RUNNING leaves. -/
def Outlook.framing (o : Outlook) (starts : Bool) : Outlook :=
  if starts then { o with prog := { o.prog with runState := .running }, sync := o.sync.clear.toSearch } else o

theorem cut_under (h : t.chan ch = (c.closedIf ch b).under o) (hf : o.Fits c) (r : RunProgram) :
    (t.cut ch r).chan ch = (c.closedIf ch (b || r.cut)).under o := by
  rw [cut_chan, h]
  cases r.cut with
  | false => rw [Bool.or_false, if_neg Bool.false_ne_true]
  | true => rw [Bool.or_true, if_pos rfl, closedIf_truncated hf]

theorem retune_under (h : t.chan ch = (c.closedIf ch b).under o) (hf : o.Fits c) (invert : Bool) :
    (t.retune ch invert).chan ch = (c.closedIf ch (b || o.sync.framing)).under { o with
      sync := o.sync.retuned invert
      losses := if o.sync.framing = true then saturate o.losses 1 else o.losses } := by
  rw [retune_chan, h]
  dsimp only
  have hsync : ((c.closedIf ch b).under o).sync = o.sync := rfl
  rw [hsync]
  cases o.sync.framing with
  | false =>
    rw [Bool.or_false, if_neg Bool.false_ne_true, if_neg Bool.false_ne_true]
    rfl
  | true =>
    rw [Bool.or_true, if_pos rfl, if_pos rfl]
    exact closedIf_truncated (o := { o with sync := o.sync.retuned invert, losses := saturate o.losses 1 })
      ⟨hf.area, hf.runIndex⟩ ch b

theorem armedInvert_under (h : t.chan ch = (c.closedIf ch b).under o) (invert : Bool) : (t.armedInvert ch invert).chan ch
    = (c.closedIf ch b).under { o with sync := { o.sync with inverted := invert } } := by
  rw [armedInvert_chan, h]
  rfl

theorem lighten_under (h : t.chan ch = (c.closedIf ch b).under o) (r : RunProgram) (decimation : Nat) :
    (t.lighten ch r decimation).chan ch = (c.closedIf ch b).under { o with
      sync := o.sync.adjust r, phase := if r.decimation = decimation then o.phase else 0 } := by
  rw [lighten_chan, h]
  rfl

theorem restartMonitor_under (h : t.chan ch = (c.closedIf ch b).under o) :
    (t.restartMonitor ch).chan ch = (c.closedIf ch b).under o.restarted := by
  rw [restartMonitor_chan, h]
  have hmonitor : ((c.closedIf ch b).under o).monitor = o.monitor := rfl
  unfold Outlook.restarted
  rw [hmonitor]
  split <;> rfl

theorem enterNoclock_under (h : t.chan ch = (c.closedIf ch b).under o) (hf : o.Fits c) :
    (t.enterNoclock ch).chan ch = (c.closedIf ch true).under o.unclocked := by
  have hlost : (if o.sync.state = .lock ∨ o.sync.state = .flywheel then saturate o.losses 1 else o.losses)
      = if o.sync.framing = true then saturate o.losses 1 else o.losses :=
    ite_of_iff (framing_iff o.sync).symm
  rw [enterNoclock_chan, h, ← closedIf_truncated (o := o.unclocked) ⟨hf.area, hf.runIndex⟩ ch b]
  unfold Outlook.unclocked
  rw [← hlost]
  rfl

theorem startFraming_under (h : t.chan ch = (c.closedIf ch b).under o) (cause : Cause) :
    (t.startFraming ch cause).chan ch = (c.closedIf ch b).under (o.framing true) := by
  rw [startFraming_chan, h]
  rfl

/-! ## The change of the framing -/

theorem changeFraming_retunes (h : (t.chan ch).prog.runState = .running) (r : RunProgram) (decimation : Nat) :
    t.changeFraming ch r .heavy decimation = t.retune ch r.invert := by
  unfold State.changeFraming
  rw [h]

theorem changeFraming_lightens (h : (t.chan ch).prog.runState = .running) (r : RunProgram) (decimation : Nat) :
    t.changeFraming ch r .light decimation = t.lighten ch r decimation := by
  unfold State.changeFraming
  rw [h]

theorem changeFraming_armed_heavy (h : (t.chan ch).prog.runState = .armed) (r : RunProgram) (decimation : Nat) :
    t.changeFraming ch r .heavy decimation = t.armedInvert ch r.invert := by
  unfold State.changeFraming
  rw [h]

theorem changeFraming_armed_light (h : (t.chan ch).prog.runState = .armed) (r : RunProgram) (decimation : Nat) :
    t.changeFraming ch r .light decimation = (t.armedInvert ch r.invert).lighten ch r decimation := by
  unfold State.changeFraming
  rw [h]

theorem adjust_off {y : Synchronizer} (h : y.state = .off) (r : RunProgram) : y.adjust r = y := by
  obtain ⟨state⟩ := y
  cases h
  rfl

/-- The change class of a heavy or a light change. -/
def changeOf (heavy : Bool) : ChangeClass := if heavy then .heavy else .light

/-- R22, R57, R58, R62: the change of the framing of a channel that is RUNNING, or ARMED with its synchronizer in OFF. -/
theorem changeFraming_under (h : t.chan ch = (c.closedIf ch b).under o) (hf : o.Fits c) {running : Bool}
    (hr : if running then o.prog.runState = .running else o.prog.runState = .armed ∧ o.sync.state = .off)
    (r : RunProgram) (heavy : Bool) (decimation : Nat) : (t.changeFraming ch r (changeOf heavy) decimation).chan ch
      = (c.closedIf ch (b || (heavy && o.sync.framing))).under (o.reframed r running heavy decimation) := by
  have hstate : (t.chan ch).prog.runState = o.prog.runState := by rw [h]; rfl
  cases running with
  | true =>
    cases heavy with
    | true =>
      refine (congrArg (fun x : State => x.chan ch) (changeFraming_retunes (hstate.trans hr) r decimation)).trans ?_
      rw [retune_under h hf, Bool.true_and]
      unfold Outlook.reframed
      simp only [true_and, true_or, if_true]
      rfl
    | false =>
      refine (congrArg (fun x : State => x.chan ch) (changeFraming_lightens (hstate.trans hr) r decimation)).trans ?_
      rw [lighten_under h, Bool.false_and, Bool.or_false]
      unfold Outlook.reframed
      simp only [Bool.false_eq_true, false_and, false_or, if_false]
      rfl
  | false =>
    obtain ⟨hr, hoff⟩ : o.prog.runState = .armed ∧ o.sync.state = .off := hr
    have hframing : o.sync.framing = false := by
      unfold Synchronizer.framing
      rw [hoff]
    cases heavy with
    | true =>
      refine (congrArg (fun x : State => x.chan ch) (changeFraming_armed_heavy (hstate.trans hr) r decimation)).trans ?_
      rw [armedInvert_under h, hframing, Bool.and_false, Bool.or_false]
      unfold Outlook.reframed
      rw [hframing]
      rfl
    | false =>
      refine (congrArg (fun x : State => x.chan ch) (changeFraming_armed_light (hstate.trans hr) r decimation)).trans ?_
      rw [lighten_under (armedInvert_under h r.invert), Bool.false_and, Bool.or_false]
      unfold Outlook.reframed
      simp only [Bool.false_eq_true, false_and, false_or, if_false]
      rw [adjust_off (y := { o.sync with inverted := r.invert }) hoff]
      rfl

end Sys2Proof.Machine
end

section
/-! PROOFS. A RUN program applied to a channel in a run (R56 to R58, R62): its steps as a whole, what they report, and the writes
that they request. -/

namespace Sys2Proof.Machine

variable {s t u : State} {ch : Chan} {c : Channel} {r old : RunProgram} {b running heavy switched reached : Bool}
  {o : Outlook}

/-! ## The settings before and after -/

theorem heavyOver_iff (r old : RunProgram) : r.heavyOver old = true
    ↔ r.inputTest ≠ old.inputTest ∨ r.invert ≠ old.invert ∨ r.syncLength ≠ old.syncLength
      ∨ r.syncPattern.toNat % 2 ^ r.syncLength ≠ old.syncPattern.toNat % 2 ^ r.syncLength
      ∨ r.syncMask.toNat % 2 ^ r.syncLength ≠ old.syncMask.toNat % 2 ^ r.syncLength
      ∨ r.frameLength ≠ old.frameLength := by
  unfold RunProgram.heavyOver lowBits
  simp only [Bool.or_eq_true, bne_iff_ne, or_assoc]

theorem changeClass_eq {p : ProgramUnit} (h : p.settings = some old) (r : RunProgram) :
    p.changeClass r = changeOf (r.heavyOver old) := by
  unfold ProgramUnit.changeClass changeOf
  rw [h]
  rfl

theorem decimation_of_some {p : ProgramUnit} (h : p.settings = some old) : p.decimation = old.decimation := by
  unfold ProgramUnit.decimation
  rw [h]
  rfl

theorem input_ne_iff {p q : ProgramUnit} (hp : p.settings = some r) (hq : q.settings = some old) :
    p.input ≠ q.input ↔ r.inputTest ≠ old.inputTest := by
  rw [input_of_some hp, input_of_some hq]
  cases r.inputTest <;> cases old.inputTest <;> decide

/-! ## The monitor's part, and entry to RUNNING -/

theorem monitorApply_eq {p : ProgramUnit} (hset : (t.chan ch).prog.settings = some r) (hp : p.settings = some old)
    (hs : switched = true ↔ r.inputTest ≠ old.inputTest) (hr : (t.chan ch).gapReached = reached) :
    t.monitorApply ch p.input = if switched then t.restartMonitor ch else if reached then t.enterNoclock ch else t := by
  have hinput := input_ne_iff hset hp
  cases switched with
  | true => exact monitorApply_switched (hinput.2 (hs.1 rfl))
  | false =>
    have hsame : (t.chan ch).prog.input = p.input := Classical.not_not.1 fun e => Bool.false_ne_true (hs.2 (hinput.1 e))
    cases reached with
    | true => exact monitorApply_reached hsame hr
    | false => exact monitorApply_same hsame (ne_true_of_eq_false hr)

theorem monitored_under (h : t.chan ch = (c.closedIf ch b).under o) (hf : o.Fits c) (switched reached : Bool) :
    (if switched then t.restartMonitor ch else if reached then t.enterNoclock ch else t).chan ch
      = (c.closedIf ch (b || (!switched && reached))).under (o.monitored switched reached) := by
  cases switched with
  | true =>
    rw [Bool.not_true, Bool.false_and, Bool.or_false]
    exact restartMonitor_under h
  | false =>
    cases reached with
    | true =>
      rw [Bool.not_false, Bool.true_and, Bool.or_true]
      exact enterNoclock_under h hf
    | false =>
      rw [Bool.not_false, Bool.true_and, Bool.or_false]
      exact h

/-- R62: a channel that is still ARMED enters RUNNING under a program without START_ON_STRT. -/
def RunProgram.starts (r : RunProgram) (running : Bool) : Bool := !running && !r.startOnStrt

theorem disarm_eq (hr : (t.chan ch).prog.runState = if running then .running else .armed) (r : RunProgram) :
    t.disarm ch r = if r.starts running then t.startFraming ch .program else t := by
  unfold State.disarm RunProgram.starts
  cases running with
  | true => exact if_neg fun e => by rw [hr] at e; exact nomatch e.1
  | false =>
    cases h : r.startOnStrt with
    | true => exact if_neg fun e => nomatch e.2
    | false => exact if_pos ⟨hr, rfl⟩

theorem framing_under (h : t.chan ch = (c.closedIf ch b).under o) (starts : Bool) :
    (if starts then t.startFraming ch .program else t).chan ch = (c.closedIf ch b).under (o.framing starts) := by
  cases starts with
  | true => exact startFraming_under h .program
  | false => exact h

/-! ## The application as a whole -/

/-- The channel is RUNNING, or ARMED with its synchronizer in OFF, under these run settings. -/
structure Channel.InRun (c : Channel) (running : Bool) (old : RunProgram) : Prop where
  settings : c.prog.settings = some old
  state : if running then c.prog.runState = .running else c.prog.runState = .armed ∧ c.sync.state = .off

theorem Channel.InRun.runState (h : c.InRun running old) : c.prog.runState = if running then .running else .armed := by
  cases running with
  | true => exact h.state
  | false => exact h.state.1

/-- An ARMED channel hands no bits. -/
theorem Channel.InRun.framing (h : c.InRun running old) (hf : c.sync.framing = true) : running = true := by
  cases running with
  | true => rfl
  | false =>
    have hoff : c.sync.state = .off := h.state.2
    rcases (framing_iff c.sync).1 hf with e | e <;> rw [hoff] at e <;> cases e

/-- The channel once the program is in force. -/
def Channel.adopted (c : Channel) (r : RunProgram) : Outlook :=
  { c.outlook with prog := { c.prog with inForce := some (.run r), settings := some r } }

/-- What the whole application leaves beside the record in fill. -/
def Outlook.replaced (o : Outlook) (r : RunProgram) (running heavy switched reached : Bool) (decimation : Nat) : Outlook :=
  ((o.reframed r running heavy decimation).monitored switched reached).framing (r.starts running)

/-- The program is in force, and CUT has been done. -/
def State.changeAdopted (s : State) (ch : Chan) (r : RunProgram) (heavy : Bool) : State :=
  (s.adopt ch (.run r) (changeOf heavy)).cut ch r

/-- The framing has changed. -/
def State.changeFramed (s : State) (ch : Chan) (r old : RunProgram) : State :=
  (s.changeAdopted ch r (r.heavyOver old)).changeFraming ch r (changeOf (r.heavyOver old)) old.decimation

/-- The monitor has had its part. -/
def State.changeMonitored (s : State) (ch : Chan) (r old : RunProgram) (switched reached : Bool) : State :=
  if switched then (s.changeFramed ch r old).restartMonitor ch
  else if reached then (s.changeFramed ch r old).enterNoclock ch else s.changeFramed ch r old

theorem changeAdopted_chan (s : State) (ch : Chan) (r : RunProgram) (heavy : Bool) : (s.changeAdopted ch r heavy).chan ch
    = ((s.chan ch).closedIf ch r.cut).under ((s.chan ch).adopted r) :=
  cut_under (b := false) (c := s.chan ch) (o := (s.chan ch).adopted r) (adopt_chan s ch (.run r) _) ⟨rfl, rfl⟩ r

theorem changeFramed_chan (h : (s.chan ch).InRun running old) (r : RunProgram) : (s.changeFramed ch r old).chan ch
    = ((s.chan ch).closedIf ch (r.cut || (r.heavyOver old && (s.chan ch).sync.framing))).under
        (((s.chan ch).adopted r).reframed r running (r.heavyOver old) old.decimation) :=
  changeFraming_under (changeAdopted_chan s ch r _) ⟨rfl, rfl⟩ h.state r _ _

theorem reframed_fits (hf : o.Fits c) (r : RunProgram) (running heavy : Bool) (decimation : Nat) :
    (o.reframed r running heavy decimation).Fits c := ⟨hf.area, hf.runIndex⟩

theorem changeMonitored_chan (h : (s.chan ch).InRun running old) (r : RunProgram) (switched reached : Bool) :
    (s.changeMonitored ch r old switched reached).chan ch = ((s.chan ch).closedIf ch
      ((r.cut || (r.heavyOver old && (s.chan ch).sync.framing)) || (!switched && reached))).under
        ((((s.chan ch).adopted r).reframed r running (r.heavyOver old) old.decimation).monitored switched reached) :=
  monitored_under (changeFramed_chan h r) (reframed_fits ⟨rfl, rfl⟩ _ _ _ _) switched reached

theorem monitored_prog (o : Outlook) (switched reached : Bool) : (o.monitored switched reached).prog = o.prog := by
  unfold Outlook.monitored
  split
  · rfl
  · split <;> rfl

/-- R56 to R58, R62: the steps of the application. -/
theorem applyChange_eq (h : (s.chan ch).InRun running old) (hs : switched = true ↔ r.inputTest ≠ old.inputTest)
    (hr : ((s.changeFramed ch r old).chan ch).gapReached = reached) : s.applyChange ch r
      = if r.starts running then (s.changeMonitored ch r old switched reached).startFraming ch .program
        else s.changeMonitored ch r old switched reached := by
  have hset : ((s.changeFramed ch r old).chan ch).prog.settings = some r := by
    rw [changeFramed_chan h r]
    rfl
  have hrun : ((s.changeMonitored ch r old switched reached).chan ch).prog.runState
      = if running then .running else .armed := by
    rw [changeMonitored_chan h r]
    exact (congrArg (fun p : ProgramUnit => p.runState) (monitored_prog
      (((s.chan ch).adopted r).reframed r running (r.heavyOver old) old.decimation) switched reached)).trans h.runState
  rw [← disarm_eq hrun]
  show ((((s.adopt ch (.run r) _).cut ch r).changeFraming ch r ((s.chan ch).prog.changeClass r)
    (s.chan ch).prog.decimation).monitorApply ch (s.chan ch).prog.input).disarm ch r = _
  rw [changeClass_eq h.settings, decimation_of_some h.settings]
  exact congrArg (fun x : State => x.disarm ch r) (monitorApply_eq hset h.settings hs hr)

/-- R37: an application leaves the gap timer as it is, up to the monitor's part. -/
theorem changeFramed_gapReached (h : (s.chan ch).InRun running old) (r : RunProgram) :
    ((s.changeFramed ch r old).chan ch).gapReached = true ↔ (s.chan ch).monitor.evaluating = true
      ∧ (s.chan ch).monitor.state ≠ .noclock ∧ ∃ g, (s.chan ch).monitor.gap = some g ∧ 10 * r.clockTimeoutUs ≤ g := by
  rw [changeFramed_chan h r]
  exact gapReached_iff (r := r) rfl

theorem applyChange_chan (h : (s.chan ch).InRun running old) (hs : switched = true ↔ r.inputTest ≠ old.inputTest)
    (hr : ((s.changeFramed ch r old).chan ch).gapReached = reached) : (s.applyChange ch r).chan ch
      = ((s.chan ch).closedIf ch
          ((r.cut || (r.heavyOver old && (s.chan ch).sync.framing)) || (!switched && reached))).under
        (((s.chan ch).adopted r).replaced r running (r.heavyOver old) switched reached old.decimation) := by
  rw [applyChange_eq h hs hr]
  exact framing_under (changeMonitored_chan h r switched reached) (r.starts running)

/-! ## Reports -/

theorem cut_events (s : State) (ch : Chan) (r : RunProgram) : (s.cut ch r).events = s.events := by
  unfold State.cut
  split
  · exact truncate_events s ch
  · rfl

theorem changeAdopted_reports (s : State) (ch : Chan) (r : RunProgram) (heavy : Bool) :
    s.Reports (s.changeAdopted ch r heavy) [(some ch, .programAdopted (changeOf heavy) r.generation)] :=
  (adopt_reports s ch (.run r) (changeOf heavy)).copy rfl rfl rfl (cut_events _ ch r)

theorem statusIf_events (p : Prop) [Decidable p] (s : State) (ch : Chan) :
    (if p then s else s.statusChanged ch).events = s.events := by
  split <;> rfl

/-- R22, R24: a heavy change reports the lock it loses, if there was one. -/
theorem retune_reports (s : State) (ch : Chan) (invert : Bool) : s.Reports (s.retune ch invert)
    (if (s.chan ch).sync.framing then [(some ch, .lockLost .retune (s.chan ch).sync.frameNumber)] else []) := by
  unfold State.retune
  dsimp only
  generalize hv : s.modSync ch (fun y => { y.clear.toSearch with inverted := invert }) = v
  have hevents : v.events = s.events := hv ▸ rfl
  have hnumber : (v.chan ch).sync.frameNumber = (s.chan ch).sync.frameNumber := by
    rw [← hv, chan_modSync]
    rfl
  cases (s.chan ch).sync.framing with
  | false => exact reports_none ((statusIf_events _ _ ch).trans hevents)
  | true =>
    have hlost := lockLost_reports v ch .retune
    rw [hnumber] at hlost
    exact hlost.copy (by rw [← hv]; rfl) (by rw [← hv]; rfl) hevents.symm (statusIf_events _ _ ch)

theorem armedInvert_events (s : State) (ch : Chan) (invert : Bool) : (s.armedInvert ch invert).events = s.events := by
  unfold State.armedInvert
  split <;> rfl

theorem lighten_events (s : State) (ch : Chan) (r : RunProgram) (decimation : Nat) :
    (s.lighten ch r decimation).events = s.events := by
  unfold State.lighten
  dsimp only
  split <;> rfl

/-- R22: only a heavy change that loses a lock reports anything of the framing. -/
theorem changeFramed_reports (h : (s.chan ch).InRun running old) (r : RunProgram) :
    (s.changeAdopted ch r (r.heavyOver old)).Reports (s.changeFramed ch r old)
      (if (r.heavyOver old && (s.chan ch).sync.framing) = true then
        [(some ch, .lockLost .retune (s.chan ch).sync.frameNumber)] else []) := by
  have hchan := changeAdopted_chan s ch r (r.heavyOver old)
  unfold State.changeFramed
  generalize s.changeAdopted ch r (r.heavyOver old) = t at hchan ⊢
  have hsync : (t.chan ch).sync = (s.chan ch).sync := by
    rw [hchan]
    rfl
  have hrun : (t.chan ch).prog.runState = if running then .running else .armed := by
    rw [hchan]
    exact h.runState
  generalize r.heavyOver old = heavy
  cases running with
  | true =>
    cases heavy with
    | true =>
      have hreports := retune_reports t ch r.invert
      rw [hsync] at hreports
      rw [show t.changeFraming ch r (changeOf true) old.decimation = _ from changeFraming_retunes hrun r _]
      exact hreports
    | false =>
      rw [show t.changeFraming ch r (changeOf false) old.decimation = _ from changeFraming_lightens hrun r _]
      exact reports_none (lighten_events _ _ _ _)
  | false =>
    have hframing : (s.chan ch).sync.framing = false :=
      Bool.eq_false_iff.2 fun e => Bool.false_ne_true (h.framing e)
    rw [hframing, Bool.and_false, if_neg Bool.false_ne_true]
    cases heavy with
    | true =>
      rw [show t.changeFraming ch r (changeOf true) old.decimation = _ from changeFraming_armed_heavy hrun r _]
      exact reports_none (armedInvert_events _ _ _)
    | false =>
      rw [show t.changeFraming ch r (changeOf false) old.decimation = _ from changeFraming_armed_light hrun r _]
      exact reports_none ((lighten_events _ _ _ _).trans (armedInvert_events _ _ _))

/-- What the monitor's part reports, of a channel with this monitor and this synchronizer. -/
def monitorEvents (m : Monitor) (y : Synchronizer) (switched reached : Bool) : List EventBody :=
  if switched then if m.state = .quiet then [] else [.activity .quiet]
  else if reached then
    .activity .noclock :: if y.state = .lock ∨ y.state = .flywheel then [.lockLost .clock y.frameNumber] else []
  else []

theorem monitorEvents_reached (ch : Chan) (m : Monitor) (y : Synchronizer) :
    (monitorEvents m y false true).map (fun e => (some ch, e)) = (some ch, .activity .noclock)
      :: if y.state = .lock ∨ y.state = .flywheel then [(some ch, .lockLost .clock y.frameNumber)] else [] := by
  unfold monitorEvents
  by_cases hl : y.state = .lock ∨ y.state = .flywheel
  · simp [hl]
  · simp [hl]

theorem monitored_reports (t : State) (ch : Chan) (switched reached : Bool) :
    t.Reports (if switched then t.restartMonitor ch else if reached then t.enterNoclock ch else t)
      ((monitorEvents (t.chan ch).monitor (t.chan ch).sync switched reached).map fun e => (some ch, e)) := by
  cases switched with
  | true => exact restartMonitor_reports t ch
  | false =>
    cases reached with
    | true =>
      rw [monitorEvents_reached]
      exact enterNoclock_reports t ch
    | false => exact reports_none rfl

theorem monitored_keeps (t : State) (ch : Chan) (switched reached : Bool) :
    KeepsBut ch t (if switched then t.restartMonitor ch else if reached then t.enterNoclock ch else t) := by
  split
  · exact restartMonitor_keeps t ch
  · split
    · exact enterNoclock_keeps t ch
    · exact .refl _ t

theorem framing_reports (t : State) (ch : Chan) (starts : Bool) :
    t.Reports (if starts then t.startFraming ch .program else t)
      (if starts then [(some ch, .channelState .running (t.chan ch).prog.runIndex .program)] else []) := by
  cases starts with
  | true => exact startFraming_reports t ch .program
  | false => exact reports_none rfl

theorem changeAdopted_keeps (s : State) (ch : Chan) (r : RunProgram) (heavy : Bool) :
    KeepsBut ch s (s.changeAdopted ch r heavy) := (adopt_keeps _ ch _ _).trans (cut_keeps _ ch r)

theorem changeFramed_keeps (s : State) (ch : Chan) (r old : RunProgram) : KeepsBut ch s (s.changeFramed ch r old) :=
  (changeAdopted_keeps s ch r _).trans (changeFraming_keeps _ ch r _ _)

theorem changeMonitored_keeps (s : State) (ch : Chan) (r old : RunProgram) (switched reached : Bool) :
    KeepsBut ch s (s.changeMonitored ch r old switched reached) :=
  (changeFramed_keeps s ch r old).trans (monitored_keeps _ ch switched reached)

/-- R24, R42, R69, R88: what an application reports, in order. -/
theorem applyChange_reports (h : (s.chan ch).InRun running old) (hs : switched = true ↔ r.inputTest ≠ old.inputTest)
    (hr : ((s.changeFramed ch r old).chan ch).gapReached = reached) : s.Reports (s.applyChange ch r)
      ((some ch, .programAdopted (changeOf (r.heavyOver old)) r.generation)
        :: (if (r.heavyOver old && (s.chan ch).sync.framing) = true then
          [(some ch, .lockLost .retune (s.chan ch).sync.frameNumber)] else [])
        ++ (monitorEvents (s.chan ch).monitor ((s.chan ch).sync.reframed r running (r.heavyOver old)) switched
          reached).map (fun e => (some ch, e))
        ++ if r.starts running then [(some ch, .channelState .running (s.chan ch).prog.runIndex .program)] else []) := by
  have hmonitored := monitored_reports (s.changeFramed ch r old) ch switched reached
  have hstarts := framing_reports (s.changeMonitored ch r old switched reached) ch (r.starts running)
  rw [changeFramed_chan h r] at hmonitored
  rw [changeMonitored_chan h r] at hstarts
  have hindex := congrArg (fun p : ProgramUnit => p.runIndex) (monitored_prog
    (((s.chan ch).adopted r).reframed r running (r.heavyOver old) old.decimation) switched reached)
  rw [applyChange_eq h hs hr]
  refine (changeMonitored_keeps s ch r old switched reached).reports ((changeFramed_keeps s ch r old).reports
    ((changeAdopted_keeps s ch r _).reports (changeAdopted_reports s ch r _) (changeFramed_reports h r)) hmonitored) ?_
  rw [show (((s.chan ch).closedIf ch _).under _).prog.runIndex = (s.chan ch).prog.runIndex from hindex] at hstarts
  exact hstarts

end Sys2Proof.Machine
end

section
/-! PROOFS. What a RUN program applied in a run leaves of each block of its channel, and the writes that it requests. -/

namespace Sys2Proof.Machine

variable {s t u : State} {ch : Chan} {c : Channel} {r old : RunProgram} {b running heavy switched reached : Bool}
  {o : Outlook} {y : Synchronizer}

/-! ## The synchronizer -/

/-- R21, R41: the synchronizer after the monitor's part. -/
def Synchronizer.monitored (y : Synchronizer) (switched reached : Bool) : Synchronizer :=
  if switched then y else if reached then y.afterClockLoss else y

theorem monitored_of_off (h : y.state = .off) (switched reached : Bool) : y.monitored switched reached = y := by
  have hloss : y.afterClockLoss = y := by
    unfold Synchronizer.afterClockLoss
    rw [h]
  unfold Synchronizer.monitored
  rw [hloss, ite_self, ite_self]

theorem retuned_monitored (y : Synchronizer) (invert switched reached : Bool) :
    (y.retuned invert).monitored switched reached = y.retuned invert := by
  have hloss : (y.retuned invert).afterClockLoss = y.retuned invert := rfl
  unfold Synchronizer.monitored
  rw [hloss, ite_self, ite_self]

/-- R25: a light change brings the counts within the new limits. -/
theorem adjust_eq (y : Synchronizer) (r : RunProgram) : y.adjust r = { y with
    checkCount :=
      if y.state = .check then min y.checkCount (r.checkCount - 1)
      else if y.state = .lock ∨ y.state = .flywheel then min y.checkCount r.checkCount else y.checkCount
    missCount := if y.state = .flywheel then min y.missCount r.flywheelLimit else y.missCount } := by
  have hcount : (if y.framing = true then min y.checkCount r.checkCount else y.checkCount)
      = if y.state = .lock ∨ y.state = .flywheel then min y.checkCount r.checkCount else y.checkCount :=
    ite_of_iff (framing_iff y)
  rw [← hcount]
  rfl

/-- R21: a clock loss after a light change leaves nothing of the change. -/
theorem adjust_afterClockLoss (y : Synchronizer) (r : RunProgram) : (y.adjust r).afterClockLoss = match y.state with
    | .off => y
    | .search => { y with history := [], spill := [], lastDistance := none, heldOpen := none }
    | .check | .lock | .flywheel => y.emptied .search := by
  obtain ⟨state⟩ := y
  cases state <;> rfl

theorem reframed_framing (y : Synchronizer) (r : RunProgram) (running heavy : Bool) :
    (y.reframed r running heavy).framing = (y.framing && !(running && heavy)) := by
  unfold Synchronizer.reframed
  cases running with
  | false => exact (Bool.and_true _).symm
  | true =>
    cases heavy with
    | false => exact (Bool.and_true _).symm
    | true => exact (Bool.and_false _).symm

theorem reframed_frameNumber (y : Synchronizer) (r : RunProgram) (running heavy : Bool) :
    (y.reframed r running heavy).frameNumber = y.frameNumber := by
  unfold Synchronizer.reframed
  split
  · split <;> rfl
  · rfl

/-! ## Each block, after the whole application -/

theorem framing_beside (o : Outlook) (starts : Bool) : (o.framing starts).monitor = o.monitor
    ∧ (o.framing starts).phase = o.phase ∧ (o.framing starts).losses = o.losses
    ∧ (o.framing starts).quietEntries = o.quietEntries ∧ (o.framing starts).noclockEntries = o.noclockEntries := by
  cases starts with
  | true => exact ⟨rfl, rfl, rfl, rfl, rfl⟩
  | false => exact ⟨rfl, rfl, rfl, rfl, rfl⟩

theorem monitored_beside (o : Outlook) (switched reached : Bool) :
    (o.monitored switched reached).phase = o.phase ∧ (o.monitored switched reached).sync = o.sync.monitored switched reached := by
  cases switched with
  | true => exact ⟨rfl, rfl⟩
  | false =>
    cases reached with
    | true => exact ⟨rfl, rfl⟩
    | false => exact ⟨rfl, rfl⟩

section
variable (o : Outlook) (r : RunProgram) (running heavy switched reached : Bool) (decimation : Nat)

theorem replaced_prog : (o.replaced r running heavy switched reached decimation).prog
    = if r.starts running then { o.prog with runState := .running } else o.prog := by
  unfold Outlook.replaced Outlook.framing
  split
  · exact congrArg (fun p : ProgramUnit => { p with runState := .running }) (monitored_prog _ switched reached)
  · exact monitored_prog _ switched reached

theorem replaced_sync : (o.replaced r running heavy switched reached decimation).sync
    = if r.starts running then (((o.sync.reframed r running heavy).monitored switched reached).clear).toSearch
      else (o.sync.reframed r running heavy).monitored switched reached := by
  obtain ⟨-, hsync⟩ := monitored_beside (o.reframed r running heavy decimation) switched reached
  unfold Outlook.replaced Outlook.framing
  split
  · exact congrArg (fun y : Synchronizer => y.clear.toSearch) hsync
  · exact hsync

theorem replaced_phase : (o.replaced r running heavy switched reached decimation).phase
    = if heavy = true ∨ r.decimation = decimation then o.phase else 0 :=
  (framing_beside _ _).2.1.trans (monitored_beside (o.reframed r running heavy decimation) switched reached).1

/-- R40, R41: an application that switches the input restarts the monitor. -/
theorem replaced_switched : let v := o.replaced r running heavy true reached decimation
    v.monitor = o.monitor.restart ∧ v.noclockEntries = o.noclockEntries
      ∧ v.quietEntries = if o.monitor.state = .quiet then o.quietEntries else saturate o.quietEntries 1 := by
  obtain ⟨hmonitor, -, -, hquiet, hnoclock⟩ :=
    framing_beside ((o.reframed r running heavy decimation).monitored true reached) (r.starts running)
  exact ⟨hmonitor, hnoclock, hquiet⟩

/-- R31: one that does not, leaves the monitor as it is while the gap timer has not reached the timeout. -/
theorem replaced_unswitched : let v := o.replaced r running heavy false false decimation
    v.monitor = o.monitor ∧ v.noclockEntries = o.noclockEntries ∧ v.quietEntries = o.quietEntries := by
  obtain ⟨hmonitor, -, -, hquiet, hnoclock⟩ :=
    framing_beside ((o.reframed r running heavy decimation).monitored false false) (r.starts running)
  exact ⟨hmonitor, hnoclock, hquiet⟩

/-- R37, R40: and lets it enter NOCLOCK once it has. -/
theorem replaced_reached : let v := o.replaced r running heavy false true decimation
    v.monitor = o.monitor.toNoclock ∧ v.noclockEntries = saturate o.noclockEntries 1
      ∧ v.quietEntries = o.quietEntries := by
  obtain ⟨hmonitor, -, -, hquiet, hnoclock⟩ :=
    framing_beside ((o.reframed r running heavy decimation).monitored false true) (r.starts running)
  exact ⟨hmonitor, hnoclock, hquiet⟩

end

/-- R24: one loss counts, whether the change or the clock takes the lock. -/
theorem replaced_losses (o : Outlook) (r : RunProgram) (decimation : Nat) (hf : o.sync.framing = true → running = true)
    (hs : switched = true → heavy = true) : (o.replaced r running heavy switched reached decimation).losses
      = if o.sync.framing = true ∧ (heavy = true ∨ reached = true) then saturate o.losses 1 else o.losses := by
  obtain ⟨-, -, hlosses, -, -⟩ :=
    framing_beside ((o.reframed r running heavy decimation).monitored switched reached) (r.starts running)
  refine Eq.trans hlosses ?_
  cases switched with
  | true => exact ite_of_iff (by rw [hs rfl]; simp)
  | false =>
    cases reached with
    | false => exact ite_of_iff (by rw [and_comm]; simp)
    | true =>
      show (if (o.sync.reframed r running heavy).framing = true
        then saturate (if heavy = true ∧ o.sync.framing = true then saturate o.losses 1 else o.losses) 1
        else if heavy = true ∧ o.sync.framing = true then saturate o.losses 1 else o.losses) = _
      rw [reframed_framing]
      cases hy : o.sync.framing with
      | false => simp
      | true =>
        rw [hf hy]
        cases heavy <;> simp

/-! ## Writes requested -/

theorem applyChange_waits_of_monitored {x : Request} (h : (s.chan ch).InRun running old)
    (hs : switched = true ↔ r.inputTest ≠ old.inputTest)
    (hr : ((s.changeFramed ch r old).chan ch).gapReached = reached)
    (hw : (s.changeMonitored ch r old switched reached).port.waiting x = true) :
    (s.applyChange ch r).port.waiting x = true := by
  rw [applyChange_eq h hs hr]
  split
  · exact (startFraming_keeps _ ch _).waiting x hw
  · exact hw

theorem applyChange_waits_of_framed {x : Request} (h : (s.chan ch).InRun running old)
    (hs : switched = true ↔ r.inputTest ≠ old.inputTest)
    (hr : ((s.changeFramed ch r old).chan ch).gapReached = reached)
    (hw : (s.changeFramed ch r old).port.waiting x = true) : (s.applyChange ch r).port.waiting x = true :=
  applyChange_waits_of_monitored h hs hr ((monitored_keeps _ ch switched reached).waiting x hw)

theorem changeFramed_waits_generation (s : State) (ch : Chan) (r old : RunProgram) :
    (s.changeFramed ch r old).port.waiting (.generationWrite ch) = true :=
  (changeFraming_keeps _ ch r _ _).waiting _ ((cut_keeps _ ch r).waiting _ (adopt_waits _ _ _ _))

theorem armedInvert_waits {invert : Bool} (h : (s.chan ch).sync.inverted ≠ invert) :
    (s.armedInvert ch invert).port.waiting (.statusWrite ch) = true := by
  unfold State.armedInvert
  rw [if_neg h]
  exact statusChanged_waits _ ch

theorem retune_waits {invert : Bool} (h : ¬((s.chan ch).sync.state = .search ∧ (s.chan ch).sync.inverted = invert)) :
    (s.retune ch invert).port.waiting (.statusWrite ch) = true := by
  unfold State.retune
  dsimp only
  rw [if_neg h]
  exact statusChanged_waits _ ch

theorem changeAdopted_sync (s : State) (ch : Chan) (r : RunProgram) (heavy : Bool) :
    ((s.changeAdopted ch r heavy).chan ch).sync = (s.chan ch).sync := by
  rw [changeAdopted_chan]
  rfl

theorem changeAdopted_runState (s : State) (ch : Chan) (r : RunProgram) (heavy : Bool) :
    ((s.changeAdopted ch r heavy).chan ch).prog.runState = (s.chan ch).prog.runState := by
  rw [changeAdopted_chan]
  rfl

/-- R22, R30: an ARMED channel shows the inversion state that the program changes. -/
theorem changeFramed_waits_armed (h : (s.chan ch).prog.runState = .armed) (hi : (s.chan ch).sync.inverted ≠ r.invert) :
    (s.changeFramed ch r old).port.waiting (.statusWrite ch) = true := by
  have hrun := (changeAdopted_runState s ch r (r.heavyOver old)).trans h
  have hwaits := armedInvert_waits (s := s.changeAdopted ch r (r.heavyOver old)) (invert := r.invert)
    (by rw [changeAdopted_sync]; exact hi)
  unfold State.changeFramed
  cases hh : r.heavyOver old with
  | true =>
    rw [hh] at hrun hwaits
    rw [show State.changeFraming _ ch r (changeOf true) old.decimation = _ from changeFraming_armed_heavy hrun r _]
    exact hwaits
  | false =>
    rw [hh] at hrun hwaits
    rw [show State.changeFraming _ ch r (changeOf false) old.decimation = _ from changeFraming_armed_light hrun r _]
    exact (lighten_keeps _ ch r _).waiting _ hwaits

/-- R22, R30: a heavy change on a RUNNING channel is shown, unless it leaves SEARCH and the inversion state as they were. -/
theorem changeFramed_waits_running (h : (s.chan ch).prog.runState = .running) (hh : r.heavyOver old = true)
    (hi : ¬((s.chan ch).sync.state = .search ∧ (s.chan ch).sync.inverted = r.invert)) :
    (s.changeFramed ch r old).port.waiting (.statusWrite ch) = true := by
  have hrun := (changeAdopted_runState s ch r true).trans h
  unfold State.changeFramed
  rw [hh, show State.changeFraming _ ch r (changeOf true) old.decimation = _ from changeFraming_retunes hrun r _]
  exact retune_waits (by rw [changeAdopted_sync]; exact hi)

theorem changeMonitored_waits_reached (s : State) (ch : Chan) (r old : RunProgram) :
    (s.changeMonitored ch r old false true).port.waiting (.statusWrite ch) = true := statusChanged_waits _ ch

theorem changeFramed_monitor (h : (s.chan ch).InRun running old) (r : RunProgram) :
    ((s.changeFramed ch r old).chan ch).monitor = (s.chan ch).monitor := by
  rw [changeFramed_chan h r]
  rfl

/-- R41, R42: the restart of a monitor that was not in QUIET is shown. -/
theorem changeMonitored_waits_switched (h : (s.chan ch).InRun running old) (hm : (s.chan ch).monitor.state ≠ .quiet)
    (r : RunProgram) (reached : Bool) :
    (s.changeMonitored ch r old true reached).port.waiting (.statusWrite ch) = true :=
  restartMonitor_waits (s := s.changeFramed ch r old) (by rw [changeFramed_monitor h]; exact hm)

/-! ## A HALT (R51, R64) -/

theorem apply_halt (s : State) (ch : Chan) (generation : Word) (cut : Bool) :
    s.apply ch (.halt generation cut) = s.applyHalt ch generation cut := rfl

theorem applyHalt_halted (h : (s.chan ch).prog.runState = .halted) (generation : Word) (cut : Bool) :
    s.applyHalt ch generation cut = s.adopt ch (.halt generation cut) .light := if_pos h

theorem applyHalt_halts (h : (s.chan ch).prog.runState ≠ .halted) (generation : Word) (cut : Bool) :
    s.applyHalt ch generation cut = (s.adopt ch (.halt generation cut) .light).haltChannel ch .program := if_neg h

theorem apply_change (h : (s.chan ch).prog.runState = .running ∨ (s.chan ch).prog.runState = .armed) (r : RunProgram) :
    s.apply ch (.run r) = s.applyChange ch r := by
  unfold State.apply
  rcases h with h | h <;> rw [h]

end Sys2Proof.Machine
end

section
/-! PROOFS. A program applied to a channel in a run (R51, R56 to R58, R62, R64): a HALT, or a RUN program over the run settings. -/

namespace Sys2Proof.Machine

variable {s t u : State} {ch : Chan} {r old : RunProgram} {b running heavy switched reached : Bool}

/-! ## What the monitor's part reports -/

theorem monitorEvents_kept (m : Monitor) (y : Synchronizer) : monitorEvents m y false false = [] := rfl

theorem monitorEvents_switched (m : Monitor) (y : Synchronizer) (reached : Bool) :
    monitorEvents m y true reached = if m.state = .quiet then [] else [.activity .quiet] := rfl

theorem monitorEvents_lost {y : Synchronizer} (h : y.framing = true) (m : Monitor) :
    monitorEvents m y false true = [.activity .noclock, .lockLost .clock y.frameNumber] :=
  congrArg (EventBody.activity .noclock :: ·) (if_pos ((framing_iff y).1 h))

theorem monitorEvents_unlocked {y : Synchronizer} (h : y.framing = false) (m : Monitor) :
    monitorEvents m y false true = [.activity .noclock] :=
  congrArg (EventBody.activity .noclock :: ·) (if_neg fun e => Bool.false_ne_true (h.symm.trans ((framing_iff y).2 e)))

/-- R24: a heavy change has taken the lock before the clock can. -/
theorem monitorEvents_retuned {y : Synchronizer} (h : y.framing = true → running = true) (m : Monitor) (r : RunProgram) :
    monitorEvents m (y.reframed r running true) false true = [.activity .noclock] := by
  refine monitorEvents_unlocked ?_ m
  rw [reframed_framing, Bool.and_true]
  cases hy : y.framing with
  | false => rfl
  | true => rw [h hy]; rfl

/-- R21, R24: after a light change the clock takes a lock that there is. -/
theorem monitorEvents_lightened (m : Monitor) (y : Synchronizer) (r : RunProgram) (running : Bool) :
    (y.framing = false → monitorEvents m (y.reframed r running false) false true = [.activity .noclock])
      ∧ (y.framing = true → monitorEvents m (y.reframed r running false) false true
        = [.activity .noclock, .lockLost .clock y.frameNumber]) := by
  have hframing : (y.reframed r running false).framing = y.framing := by
    rw [reframed_framing, Bool.and_false]
    exact Bool.and_true _
  refine ⟨fun h => monitorEvents_unlocked (hframing.trans h) m, fun h => ?_⟩
  rw [monitorEvents_lost (hframing.trans h) m, reframed_frameNumber]

/-! ## Channels in a run -/

theorem eq_false_of_iff {b : Bool} {P : Prop} (h : b = true ↔ P) (hn : ¬P) : b = false :=
  Bool.eq_false_iff.2 fun e => hn (h.1 e)

theorem inRun_of_settings (h : (s.chan ch).prog.runState = .running
      ∨ (s.chan ch).prog.runState = .armed ∧ (s.chan ch).sync.state = .off) (hs : (s.chan ch).prog.settings = some old) :
    ∃ running, (s.chan ch).InRun running old ∧ (running = true ↔ (s.chan ch).prog.runState = .running)
      ∧ (running = false ↔ (s.chan ch).prog.runState = .armed) := by
  rcases h with h | ⟨h, hoff⟩
  · refine ⟨true, ⟨hs, h⟩, ⟨fun _ => h, fun _ => rfl⟩, ⟨(fun e => nomatch e), fun e => ?_⟩⟩
    rw [h] at e
    cases e
  · refine ⟨false, ⟨hs, h, hoff⟩, ⟨(fun e => nomatch e), fun e => ?_⟩, ⟨fun _ => h, fun _ => rfl⟩⟩
    rw [h] at e
    cases e

theorem Channel.InRun.off {c : Channel} (h : c.InRun running old) (hr : running = false) : c.sync.state = .off := by
  have hstate := h.state
  rw [hr] at hstate
  exact hstate.2

/-- R62: what `starts` says of the channel. -/
theorem starts_iff (h : running = false ↔ (s.chan ch).prog.runState = .armed) (r : RunProgram) :
    r.starts running = true ↔ (s.chan ch).prog.runState = .armed ∧ r.startOnStrt = false := by
  unfold RunProgram.starts
  rw [Bool.and_eq_true, Bool.not_eq_true', Bool.not_eq_true', h]

/-! ## The synchronizer after the application -/

theorem replacedSync_starts {y : Synchronizer} (h : y.state = .off) (r : RunProgram) (heavy switched reached : Bool) :
    (((y.reframed r false heavy).monitored switched reached).clear).toSearch
      = { y.emptied .search with inverted := r.invert } := by
  rw [monitored_of_off (y := y.reframed r false heavy) h]
  rfl

theorem replacedSync_armed {y : Synchronizer} (h : y.state = .off) (r : RunProgram) (heavy switched reached : Bool) :
    (y.reframed r false heavy).monitored switched reached = { y with inverted := r.invert } :=
  monitored_of_off (y := y.reframed r false heavy) h switched reached

/-! ## The record in fill beside the rest -/

/-- A channel whose record in fill was closed or not, as a truncation that follows the other steps. -/
theorem closedIf_steps {o : Outlook} (h : u.chan ch = ((s.chan ch).closedIf ch b).under o) (hf : o.Fits (s.chan ch))
    {phase : Nat} (hp : o.phase = phase) :
    ∃ x : State, x.chan ch = { s.chan ch with
        prog := (u.chan ch).prog
        sync := (u.chan ch).sync
        monitor := (u.chan ch).monitor
        capture := { (s.chan ch).capture with phase := phase }
        stats := { (s.chan ch).stats with
          counters := { (s.chan ch).stats.counters with
            losses := (u.chan ch).stats.counters.losses
            quietEntries := (u.chan ch).stats.counters.quietEntries
            noclockEntries := (u.chan ch).stats.counters.noclockEntries } } }
      ∧ (b = true → u.chan ch = (x.truncate ch).chan ch) ∧ (¬b = true → u.chan ch = x.chan ch) := by
  refine ⟨s.modChan ch fun c => c.under o, ?_, fun hb => ?_, fun hb => ?_⟩
  · rw [chan_modChan, h, ← hp]
    rfl
  · rw [truncate_chan, chan_modChan, h, hb, truncated_under hf]
    rfl
  · rw [chan_modChan, h, Bool.eq_false_iff.2 hb]
    rfl

theorem replaced_fits {o : Outlook} {c : Channel} (hf : o.Fits c) (r : RunProgram)
    (running heavy switched reached : Bool) (decimation : Nat) :
    (o.replaced r running heavy switched reached decimation).Fits c := by
  have hprog := replaced_prog o r running heavy switched reached decimation
  refine ⟨?_, ?_⟩
  · rw [hprog]
    split
    · exact hf.area
    · exact hf.area
  · rw [hprog]
    split
    · exact hf.runIndex
    · exact hf.runIndex

/-! ## The obligation -/

/-- R51, R64: a HALT applied. -/
theorem applyHalt_leaves (s : State) (ch : Chan) (generation : Word) (cut : Bool) :
    let p := (s.chan ch).prog
    let u := s.applyHalt ch generation cut
    KeepsBut ch s u ∧ u.port.waiting (.generationWrite ch) = true
      ∧ (u.chan ch).prog = { p with inForce := some (.halt generation cut), runState := .halted }
      ∧ (p.runState = .halted → s.Reports u [(some ch, .programAdopted .light generation)]
        ∧ u.chan ch = { s.chan ch with prog := (u.chan ch).prog })
      ∧ (p.runState ≠ .halted → (u.chan ch).sync = (s.chan ch).sync.emptied .off
        ∧ (u.chan ch).monitor = (s.chan ch).monitor
        ∧ (∃ x : State, x.chan ch = { s.chan ch with prog := (u.chan ch).prog, sync := (u.chan ch).sync }
          ∧ u.chan ch = ((x.truncate ch).writebackNext ch).chan ch)
        ∧ (u.chan ch).capture.fill = none ∧ u.port.waiting (.statusWrite ch) = true
        ∧ s.Reports u [(some ch, .programAdopted .light generation),
            (some ch, .channelState .halted p.runIndex .program)]) := by
  intro p u
  generalize ht : s.adopt ch (.halt generation cut) .light = t
  have hchan : t.chan ch = { s.chan ch with prog := { p with inForce := some (.halt generation cut) } } :=
    ht ▸ adopt_chan s ch (.halt generation cut) .light
  have hkeeps : KeepsBut ch s t := ht ▸ adopt_keeps s ch _ _
  have hreports : s.Reports t [(some ch, .programAdopted .light generation)] := ht ▸ adopt_reports s ch _ _
  have hwaits : t.port.waiting (.generationWrite ch) = true := ht ▸ adopt_waits s ch _ _
  by_cases hh : p.runState = .halted
  · have hu : u = t := (applyHalt_halted hh generation cut).trans ht
    have hprog : (u.chan ch).prog = { p with inForce := some (.halt generation cut), runState := .halted } := by
      rw [hu, hchan, ← hh]
    refine ⟨hu ▸ hkeeps, hu ▸ hwaits, hprog, fun _ => ⟨hu ▸ hreports, ?_⟩, fun h => absurd hh h⟩
    rw [hu, hchan]
  · have hu : u = t.haltChannel ch .program := (applyHalt_halts hh generation cut).trans (by rw [ht])
    obtain ⟨hprog, hsync, hmonitor, hfill, hstatus⟩ := haltChannel_halts t ch .program
    obtain ⟨x, hx, hsteps⟩ := haltChannel_steps t ch .program
    have hhalted := haltChannel_reports t ch .program
    rw [hchan] at hprog hsync hmonitor hx hhalted
    rw [hu]
    refine ⟨hkeeps.trans (haltChannel_keeps t ch _), (haltChannel_keeps t ch _).waiting _ hwaits, hprog,
      fun h => absurd h hh, fun _ => ⟨hsync, hmonitor, ⟨x, ?_, hsteps⟩, hfill, hstatus, hkeeps.reports hreports hhalted⟩⟩
    rw [hx, hprog, hsync]
    rfl

/-- Settles O41: a HALT; or a RUN program, step by step through the framing, the monitor and the run state. -/
theorem programReplaced : Obligations.ProgramReplaced := by
  intro ch s p y m c
  refine ⟨fun generation cut => ?halt, ?run⟩
  case halt =>
    rw [apply_halt]
    exact applyHalt_leaves s ch generation cut
  case run =>
    intro r old hrun hset u heavy locked disarmed switched reached closes losesLock n reports
    obtain ⟨running, hin, hrunning, harmed⟩ := inRun_of_settings hrun hset
    have hu : u = s.applyChange ch r := apply_change (hrun.imp_right And.left) r
    have hheavy : r.heavyOver old = true ↔ heavy := heavyOver_iff r old
    have hlocked : y.framing = true ↔ locked := framing_iff y
    have hdisarmed : r.starts running = true ↔ disarmed := starts_iff harmed r
    have hframing : y.framing = true → running = true := hin.framing
    obtain ⟨sw, hsw⟩ : ∃ sw : Bool, sw = true ↔ switched := ⟨_, bne_iff_ne⟩
    obtain ⟨re, hgap⟩ : ∃ re, ((s.changeFramed ch r old).chan ch).gapReached = re := ⟨_, rfl⟩
    have hre : re = true ↔ reached := hgap ▸ changeFramed_gapReached hin r
    have hoffline : running = false → y.state = .off := hin.off
    have hswheavy : sw = true → r.heavyOver old = true := fun e => hheavy.2 (.inl (hsw.1 e))
    have hchan := applyChange_chan hin hsw hgap
    have hreports := applyChange_reports hin hsw hgap
    rw [← hu] at hchan hreports
    -- what the application leaves of each block
    have huprog : (u.chan ch).prog = _ := (congrArg (fun c : Channel => c.prog) hchan).trans (replaced_prog ..)
    have husync : (u.chan ch).sync = _ := (congrArg (fun c : Channel => c.sync) hchan).trans (replaced_sync ..)
    have hulosses : n.losses = _ := (congrArg (fun c : Channel => c.stats.counters.losses) hchan).trans
      (replaced_losses ((s.chan ch).adopted r) r old.decimation hframing hswheavy)
    have humonitor : (u.chan ch).monitor = _ := congrArg (fun c : Channel => c.monitor) hchan
    have huquiet : n.quietEntries = _ := congrArg (fun c : Channel => c.stats.counters.quietEntries) hchan
    have hunoclock : n.noclockEntries = _ := congrArg (fun c : Channel => c.stats.counters.noclockEntries) hchan
    have hloses : y.framing = true ∧ (r.heavyOver old = true ∨ re = true) ↔ losesLock :=
      and_congr hlocked (or_congr hheavy hre)
    have hcloses : ((r.cut || (r.heavyOver old && y.framing)) || (!sw && re)) = true ↔ closes := by
      rw [Bool.or_eq_true, Bool.or_eq_true, Bool.and_eq_true, Bool.and_eq_true, Bool.not_eq_true', ← Bool.not_eq_true,
        hheavy, hlocked, hsw, hre, or_assoc]
    have hreported : ∀ (change : ChangeClass) (lost : Bool) (mid : List EventBody),
        changeOf (r.heavyOver old) = change → (r.heavyOver old && y.framing) = lost →
        monitorEvents m (y.reframed r running (r.heavyOver old)) sw re = mid → reports change lost mid := by
      rintro _ _ _ rfl rfl rfl
      have hlast : (if r.starts running then [(some ch, EventBody.channelState .running p.runIndex .program)] else [])
          = if p.runState = .armed ∧ r.startOnStrt = false
            then [(some ch, EventBody.channelState .running p.runIndex .program)] else [] :=
        ite_of_iff hdisarmed
      rw [hlast] at hreports
      exact hreports
    have hstays : p.runState = .running → ¬r.starts running = true := fun h e => by
      rw [hrunning.2 h] at e
      exact Bool.false_ne_true e
    have hchange : heavy → changeOf (r.heavyOver old) = .heavy := fun h => if_pos (hheavy.2 h)
    have hlight : ¬heavy → changeOf (r.heavyOver old) = .light := fun h => if_neg fun e => h (hheavy.1 e)
    have hlock : heavy → locked → (r.heavyOver old && y.framing) = true := fun h hl =>
      Bool.and_eq_true_iff.2 ⟨hheavy.2 h, hlocked.2 hl⟩
    have hnolock : ¬locked → (r.heavyOver old && y.framing) = false := fun h =>
      Bool.and_eq_false_imp.2 fun _ => eq_false_of_iff hlocked h
    have hnoheavy : ¬heavy → (r.heavyOver old && y.framing) = false := fun h =>
      Bool.and_eq_false_imp.2 fun e => absurd (hheavy.1 e) h
    refine ⟨hu ▸ applyChange_keeps s ch r, hu ▸ applyChange_waits_of_framed hin hsw hgap
      (changeFramed_waits_generation s ch r old), ?beside, ?fill, ?wb, ?lost, ?unlost, ?quiet, ?noclock, ?disarmed,
      ?undisarmed, ?armed, ?retuned, ?lightened, ?switched, ?kept, ?reached⟩
    case beside =>
      obtain ⟨x, hx, hclosed, hopen⟩ := closedIf_steps hchan (replaced_fits ⟨rfl, rfl⟩ r running _ sw re _)
        ((replaced_phase ..).trans (ite_of_iff (or_congr_left hheavy)))
      exact ⟨x, hx, fun h => hclosed (hcloses.2 h), fun h => hopen fun e => h (hcloses.1 e)⟩
    case fill =>
      intro h
      rw [hchan, hcloses.2 h]
      exact Channel.truncated_fill ch (s.chan ch)
    case wb =>
      rw [hchan]
      exact closedIf_wb ch _ (s.chan ch)
    case lost => exact fun h => hulosses.trans (if_pos (hloses.2 h))
    case unlost => exact fun h => hulosses.trans (if_neg fun e => h (hloses.1 e))
    case quiet =>
      intro h
      rw [huquiet, eq_false_of_iff hsw h]
      cases re with
      | true => exact (replaced_reached ..).2.2
      | false => exact (replaced_unswitched ..).2.2
    case noclock =>
      intro h
      rw [hunoclock]
      by_cases hs : switched
      · rw [hsw.2 hs]
        exact (replaced_switched ..).2.1
      · rw [eq_false_of_iff hsw hs, eq_false_of_iff hre (h.resolve_left hs)]
        exact (replaced_unswitched ..).2.1
    case disarmed =>
      intro h
      have hrunning : running = false := harmed.2 h.1
      have hoff : y.state = .off := hoffline hrunning
      refine ⟨huprog.trans (if_pos (hdisarmed.2 h)), (husync.trans (if_pos (hdisarmed.2 h))).trans ?_, ?_⟩
      · rw [hrunning]
        exact replacedSync_starts hoff r _ sw re
      · rw [hu, applyChange_eq hin hsw hgap, if_pos (hdisarmed.2 h)]
        exact startFraming_waits _ ch _
    case undisarmed => exact fun h => huprog.trans (if_neg fun e => h (hdisarmed.1 e))
    case armed =>
      intro ha hstart
      have hrunning : running = false := harmed.2 ha
      have hoff : y.state = .off := hoffline hrunning
      have harmedStays : ¬r.starts running = true := fun e => by
        have hclear : r.startOnStrt = false := (hdisarmed.1 e).2
        rw [hstart] at hclear
        cases hclear
      refine ⟨(husync.trans (if_neg harmedStays)).trans ?_, fun hi => hu ▸ applyChange_waits_of_framed hin hsw hgap
        (changeFramed_waits_armed ha (Ne.symm hi))⟩
      rw [hrunning]
      exact replacedSync_armed hoff r _ sw re
    case retuned =>
      intro hr hh
      refine ⟨(husync.trans (if_neg (hstays hr))).trans ?_, fun hi => hu ▸ applyChange_waits_of_framed hin hsw hgap
        (changeFramed_waits_running hr (hheavy.2 hh) hi)⟩
      rw [hrunning.2 hr, hheavy.2 hh]
      exact retuned_monitored y r.invert sw re
    case lightened =>
      intro hr hh hn
      refine (husync.trans (if_neg (hstays hr))).trans ?_
      rw [hrunning.2 hr, eq_false_of_iff hheavy hh, eq_false_of_iff hre hn,
        Bool.eq_false_iff.2 fun e => hh (hheavy.1 (hswheavy e))]
      exact adjust_eq y r
    case switched =>
      intro h
      rw [humonitor, huquiet, hsw.2 h]
      obtain ⟨hmonitor, -, hquiet⟩ := replaced_switched ((s.chan ch).adopted r) r running (r.heavyOver old) re old.decimation
      refine ⟨hmonitor, hquiet, fun hm => hu ▸ applyChange_waits_of_monitored hin hsw hgap ?_,
        fun hl => hreported .heavy false _ (hchange (.inl h)) (hnolock hl) ?_,
        fun hl => hreported .heavy true _ (hchange (.inl h)) (hlock (.inl h) hl) ?_⟩
      · rw [hsw.2 h]
        exact changeMonitored_waits_switched hin hm r re
      · rw [hsw.2 h]
        exact monitorEvents_switched m _ re
      · rw [hsw.2 h]
        exact monitorEvents_switched m _ re
    case kept =>
      intro h hn
      have hs : sw = false := eq_false_of_iff hsw h
      have hr : re = false := eq_false_of_iff hre hn
      have hevents : monitorEvents m (y.reframed r running (r.heavyOver old)) sw re = [] := by
        rw [hs, hr]
        exact monitorEvents_kept m _
      refine ⟨?_, fun hh => hreported .light false [] (hlight hh) (hnoheavy hh) hevents,
        fun hh hl => hreported .heavy false [] (hchange hh) (hnolock hl) hevents,
        fun hh hl => hreported .heavy true [] (hchange hh) (hlock hh hl) hevents⟩
      rw [humonitor, hs, hr]
      exact (replaced_unswitched ..).1
    case reached =>
      intro h hn
      have hs : sw = false := eq_false_of_iff hsw h
      have hr : re = true := hre.2 hn
      have hretuned : heavy → monitorEvents m (y.reframed r running (r.heavyOver old)) sw re = [.activity .noclock] :=
        fun hh => by
          rw [hs, hr, hheavy.2 hh]
          exact monitorEvents_retuned hframing m r
      obtain ⟨hunlocked, hlost⟩ := monitorEvents_lightened m y r running
      obtain ⟨hmonitor, hnoclock, -⟩ := replaced_reached ((s.chan ch).adopted r) r running (r.heavyOver old) old.decimation
      refine ⟨?_, ?_, hu ▸ applyChange_waits_of_monitored hin hsw hgap ?_, fun hrun hh => ?_,
        fun hh hl => hreported .heavy false _ (hchange hh) (hnolock hl) (hretuned hh),
        fun hh hl => hreported .heavy true _ (hchange hh) (hlock hh hl) (hretuned hh),
        fun hh hl => hreported .light false _ (hlight hh) (hnoheavy hh) ?_,
        fun hh hl => hreported .light false _ (hlight hh) (hnoheavy hh) ?_⟩
      · rw [humonitor, hs, hr]
        exact hmonitor
      · rw [hunoclock, hs, hr]
        exact hnoclock
      · rw [hs, hr]
        exact changeMonitored_waits_reached s ch r old
      · refine (husync.trans (if_neg (hstays hrun))).trans ?_
        rw [hrunning.2 hrun, eq_false_of_iff hheavy hh, hs, hr]
        exact adjust_afterClockLoss y r
      · rw [hs, hr, eq_false_of_iff hheavy hh]
        exact hunlocked (eq_false_of_iff hlocked hl)
      · rw [hs, hr, eq_false_of_iff hheavy hh]
        exact hlost (hlocked.2 hl)

end Sys2Proof.Machine
end
